-- ==== Sys2Proof/Word.lean ====
section
/-!
DEFINITION. The widths the block fixes (00_scope.md, after rule R7): a byte is 8 bits, the small
operand of a command byte is 4 bits, the Digital Button Mask is 16 bits.  There is no address width
and no general register width.
-/

namespace Sys2Proof

/-- A byte: 8 bits, bit 0 the least significant (R8). -/
abbrev Byte := BitVec 8

/-- The `arg` field of a command byte (R77). -/
abbrev Nibble := BitVec 4

/-- The Digital Button Mask (R22). -/
abbrev Mask := BitVec 16

end Sys2Proof
end

