-- ==== Sys2Proof/Config.lean ====
section
/-!
DEFINITION. What is fixed for a run and is not state of the block (R7, R34), and the free values: what
no rule determines.  A free value is an opaque constant applied to a counter of the state, so a claim
holds whatever it is.
-/

namespace Sys2Proof

/-- The pin assignment (R7 `PINS`): a record of four line ids.  The block never computes with them. -/
structure Pins where
  output : Nat
  input  : Nat
  clock  : Nat
  select : Nat
deriving DecidableEq, Repr

/-- The implementation parameters of R7 (the rows of kind `param`) and `usable(PINS)` of R116. -/
structure Params where
  /-- `STALE_US`: elapsed time above which READ renegotiates first. -/
  staleUs : Nat
  /-- `CLOCK_HZ`: serial clock rate handed to the transport. -/
  clockHz : Nat
  /-- `SPI_MODE`: polarity and phase mode handed to the transport. -/
  spiMode : Nat
  /-- `NATIVE_MSB_FIRST`: shift direction inside one byte; read only below the byte (R121). -/
  nativeMsbFirst : Bool
  /-- `PINS`. -/
  pins : Pins
  /-- `usable(PINS)`, the predicate of 93_implementation_defined.md U7 at this run's `PINS`. -/
  pinsUsable : Bool
  /-- `INIT_INC_UNCAPPED`: INIT's increment of DELAY ignores the ceiling. -/
  initIncUncapped : Bool
  /-- The model's own, not R7's: whether NEG too is refused where there is no session, as R210 has it after a
  failed INIT against R161 and R205 (log 24). -/
  negNeedsSession : Bool
  /-- `NEG_AFTER_LAST_ATTEMPT`: READ renegotiates and waits after its last failed attempt too. -/
  negAfterLastAttempt : Bool
deriving DecidableEq, Repr

namespace Config

/-- The defaults of R7.  R7 gives no value for `PINS` and U7 none for `usable`:
DESIGN CHOICE (log 10), unsafe only for a claim about the default itself.  `negNeedsSession` is
false, as R161 and R205 have it: DESIGN CHOICE (log 24), unsafe only for a claim about the default itself. -/
def defaults : Params where
  staleUs := 1500
  clockHz := 500000
  spiMode := 3
  nativeMsbFirst := true
  pins := { output := 0, input := 1, clock := 2, select := 3 }
  pinsUsable := true
  initIncUncapped := false
  negNeedsSession := false
  negAfterLastAttempt := true

/-- FREE VALUE (R120, U5, U6): the raw byte PEER answers at its n-th draw.  Any of the 256 values. -/
opaque peerByte : Nat → Byte

/-- FREE VALUE (R212, U12): how many microseconds more than its least an event, or the gap between two
operations, lets pass at the n-th draw. -/
opaque clockSlack : Nat → Nat

/-- FREE VALUE (R36, D25): what a read of a byte of FRAME answers before FRAME is written. -/
opaque freeByte : Nat → Byte

/-- FREE VALUE (R36, D25): what a read of BTN answers before BTN is written. -/
opaque freeMask : Nat → Mask

end Config

end Sys2Proof
end

