-- ==== Sys2Proof/Machine/Protocol.lean ====
section
/-!
DEFINITION. The protocol numbers R7 fixes (its rows of kind `constant`), each by name, and the literal
store (R52, R72): protocol bytes, before the codec.
-/

namespace Sys2Proof.Machine

/-- `CMD_MAX`: longest command frame the block accepts (R7, D3). -/
abbrev cmdMax : Nat := 9

/-- `SETTLE_US`: the wait after select, before the first byte (R7, D29). -/
abbrev settleUs : Nat := 5

/-- `DELAY_MIN` (R7). -/
abbrev delayMin : Byte := 1

/-- `DELAY_CAP` (R7). -/
abbrev delayCap : Byte := 10

/-- `READ_ATTEMPTS`: read-data exchanges tried by one READ (R7). -/
abbrev readAttempts : Nat := 5

/-- `INIT_ATTEMPTS`: negotiation attempts in INIT (R7). -/
abbrev initAttempts : Nat := 11

/-- `PROBE_READS`: diagnostic READs at the start of INIT (R7). -/
abbrev probeReads : Nat := 2

/-- `ALIVE_SET`: mode bytes that pass the probe (R7). -/
def aliveSet : List Byte := [0x41, 0x73, 0x79]

/-- `ANALOG_CONFIRM`: mode byte that ends negotiation (R7). -/
def analogConfirm : Byte := 0x73

/-- `ANALOG_NIBBLE`: high nibble of the mode byte of a valid analog frame (R7). -/
def analogNibble : Nibble := 0x7

/-- Bits per word handed to the transport (R57, R116). -/
abbrev bitsPerWord : Nat := 8

/-- Enter-Configuration (R72). -/
def enterConfiguration : List Byte := [0x01, 0x43, 0x00, 0x01, 0x00]

/-- Set-Analog-Mode (R72). -/
def setAnalogMode : List Byte := [0x01, 0x44, 0x00, 0x01, 0x03, 0x00, 0x00, 0x00, 0x00]

/-- Exit-Configuration (R72). -/
def exitConfiguration : List Byte := [0x01, 0x43, 0x00, 0x00, 0x5A, 0x5A, 0x5A, 0x5A, 0x5A]

/-- Read-Data (R72). -/
def readData : List Byte := [0x01, 0x42, 0x00, 0x00, 0x00, 0x00, 0x00, 0x00, 0x00]

/-- `BYTE_US` (R7): one byte transfer on the reference clock.  No meaning reads it (R247).  R7 and R247
give its values at 500000 and 250000 and no rounding: for a `CLOCK_HZ` that does not divide 8000000 it is
rounded down, and at 0 it is 0 (DESIGN CHOICE, log 23). -/
def byteUs (p : Params) : Nat := 8 * 1000000 / p.clockHz

end Sys2Proof.Machine
end

