-- ==== Sys2Proof/Machine/State.lean ====
section
/-!
DEFINITION. Everything the spec gives the machine, as plain data: the architectural state of R20, the
parameters of the run (R7), the trace (R10), the host port (R77, R79), and the two collaborators' inputs
(R120, R212).  The reasons a step can stop, and the state after reset (R36, R230).
-/

namespace Sys2Proof.Machine

/-- The three lines the block drives (R9, R213).  `DI` is an input and never driven. -/
inductive BusLine where
  /-- `DO`, the output line. -/
  | dataOut
  /-- `CLK`, the clock line. -/
  | clock
  /-- `CS`, the select line, active low. -/
  | select
deriving DecidableEq, Repr

/-- The alphabet of the trace (R10). -/
inductive Event where
  /-- `Line(l, b)`: drive line `l` to level `b`. -/
  | line (l : BusLine) (level : Bool)
  /-- `Xfer(o, i)`: raw byte `o` sent, raw byte `i` received. -/
  | xfer (o i : Byte)
  /-- `Delay(n)`: block for `n` microseconds. -/
  | delay (us : Nat)
  /-- `Configure(p)`. -/
  | configure (p : Pins)
  /-- `SetFrame(w, m)`: bits per word, polarity and phase mode. -/
  | setFrame (bits mode : Nat)
  /-- `SetClock(hz)`. -/
  | setClock (hz : Nat)
deriving DecidableEq, Repr

/-- SESSION (R28, R160). -/
inductive Session where
  | uninitialized
  /-- INIT is running its diagnostic READs. -/
  | probing
  /-- INIT is running its negotiation loop. -/
  | configuringAnalogMode
  /-- A session exists; `analogOk` is the result of the most recent READ. -/
  | ready (analogOk : Bool)
deriving DecidableEq, Repr

/-- The result codes of R206.  Every one of them ends an operation and reaches HOST at the host port;
none of them stops the machine (R200). -/
inductive ResultCode where
  | ok
  /-- Error result of INIT (R201). -/
  | noResponse
  /-- Error result of INIT (R202). -/
  | modeNegotiationFailed
  /-- Error result of READ (R203). -/
  | readMiss
  /-- Refusal by the decoder (R205). -/
  | reservedOp
  /-- Refusal of XCHG (R205). -/
  | badLength
  /-- Refusal of AXIS, RDREG, WRREG (R205). -/
  | badIndex
  /-- Refusal of WRREG (R205). -/
  | badValue
  /-- Refusal of READ (R205). -/
  | noSession
  /-- Refusal of CFG, INIT (R204, R205). -/
  | badConfig
  /-- Refusal of the exchanges and NEG (R205). -/
  | notConfigured
deriving DecidableEq, Repr

/-- The machine has no fault: "No operation traps, vectors, saves state or runs a handler" (R200), and
every reserved or out-of-range request has an answer of its own (R205).  No constructor, so no step can
end in one; safe. -/
inductive Fault : Type
deriving DecidableEq, Repr

/-- The refusals of the MODEL (the spec's refusals are result codes, `ResultCode`). -/
inductive Refusal where
  /-- Raised by `exec` for an instruction without a meaning.  No arm raises it: every instruction has
  its meaning.  Safe. -/
  | notModelled (mnemonic : String)
deriving DecidableEq, Repr

structure State where
  /-- `FRAME[0..8]`, the Response Frame (R21). -/
  frame : Vector Byte 9
  /-- `FWR`: FRAME has been written since reset (R36). -/
  fwr : Bool
  /-- `BTN`, the stored Digital Button Mask (R22). -/
  btn : Mask
  /-- `BWR`: BTN has been written since reset (R36). -/
  bwr : Bool
  /-- `DELAY`, the Adaptive Read Delay in microseconds (R26). -/
  delay : Byte
  /-- `CS`, the level last driven on the select line, true = 1 = inactive (R29). -/
  cs : Bool
  /-- `CFGD`: CFG has run since reset (R29). -/
  cfgd : Bool
  /-- `SESSION` (R28). -/
  session : Session
  /-- `TLAST`, the Last-Read Timestamp (R27). -/
  tlast : Nat
  /-- The parameters of the run (R7, R34); no operation writes them (log 9). -/
  params : Params
  /-- The trace since reset (R10). -/
  trace : List Event
  /-- `NOW`, the clock collaborator's time in microseconds (R212). -/
  now : Nat
  /-- The bytes HOST has sent and the block has not taken, first byte first (R77, log 7). -/
  hostIn : List Byte
  /-- The result bytes the block has returned to HOST since reset (R79, log 7). -/
  hostOut : List Byte
  /-- The model's own: the raw bytes PEER answers next (R120, log 5). -/
  answers : List Byte
  /-- The model's own: how many answers were drawn after `answers` ran out (log 5). -/
  answerDraws : Nat
  /-- The model's own: the extra time the next events take (R212, log 6). -/
  ticks : List Nat
  /-- The model's own: how many of those were drawn after `ticks` ran out (log 6). -/
  tickDraws : Nat
  /-- The model's own: how many free values reads of unwritten registers have drawn (log 4). -/
  freeDraws : Nat
deriving DecidableEq, Repr

/-- The block right after reset (R36, R230) in a run with parameters `p`.  FRAME and BTN are unspecified
by R36: zeros are stored (DESIGN CHOICE, logs 1 and 2, unsafe) and no operation answers them, because
`fwr` and `bwr` are false (log 4). -/
def State.resetWith (p : Params) : State where
  frame := Vector.replicate 9 0
  fwr := false
  btn := 0
  bwr := false
  delay := 1
  cs := true
  cfgd := false
  session := .uninitialized
  tlast := 0
  params := p
  trace := []
  now := 0
  hostIn := []
  hostOut := []
  answers := []
  answerDraws := 0
  ticks := []
  tickDraws := 0
  freeDraws := 0

/-- The block right after reset with the default parameters of R7 (log 9). -/
def State.reset : State := State.resetWith Config.defaults

end Sys2Proof.Machine
end

