-- ==== Sys2Proof/Machine/Ops.lean ====
section
/-!
DEFINITION. The named operations every meaning is made of (R9): the clock, the trace, the bus
primitives, the exchange, reads of the two registers that can be unwritten, and the one way an
operation ends (R79, R200).
-/

namespace Sys2Proof.Machine

/-! ### Clock and trace -/

/-- CLOCK lets `least` microseconds pass, and a free amount more (R212, log 6). -/
def elapse (least : Nat) (s : State) : State :=
  match s.ticks with
  | extra :: later => { s with now := s.now + least + extra, ticks := later }
  | [] => { s with now := s.now + least + Config.clockSlack s.tickDraws, tickDraws := s.tickDraws + 1 }

/-- The least time an event takes: `Delay(n)` takes at least `n`, any other event at least 0 (R212). -/
def leastDuration : Event → Nat
  | .delay n => n
  | .line _ _ => 0
  | .xfer _ _ => 0
  | .configure _ => 0
  | .setFrame _ _ => 0
  | .setClock _ => 0

/-- Append an event to the trace (R10) and let its time pass (R212). -/
def emit (e : Event) (s : State) : State :=
  elapse (leastDuration e) { s with trace := s.trace ++ [e] }

/-! ### Bus primitives (R9, R213) -/

/-- `Delay(n)`. -/
def delayFor (n : Nat) (s : State) : State := emit (.delay n) s

/-- `Line(CS, b); CS <- b` (R110, R116): the one way the select line is driven. -/
def driveSelect (level : Bool) (s : State) : State :=
  { emit (.line .select level) s with cs := level }

/-- PEER's next answer: any byte (R120, log 5). -/
def nextAnswer (s : State) : Byte × State :=
  match s.answers with
  | r :: later => (r, { s with answers := later })
  | [] => (Config.peerByte s.answerDraws, { s with answerDraws := s.answerDraws + 1 })

/-- `Xfer(o)` (R120): send one raw byte, receive one raw byte. -/
def xfer (o : Byte) (s : State) : Byte × State :=
  ((nextAnswer s).1, emit (.xfer o (nextAnswer s).1) (nextAnswer s).2)

/-! ### The exchange (R110) -/

/-- The loop of R110: each command byte through the codec, one transfer, the answer back through the
codec.  The result is the response bytes, protocol bytes. -/
def transferBytes : List Byte → State → List Byte × State
  | [], s => ([], s)
  | b :: later, s =>
    (reverse8 (xfer (reverse8 b) s).1 :: (transferBytes later (xfer (reverse8 b) s).2).1,
      (transferBytes later (xfer (reverse8 b) s).2).2)

/-- The head of R110: output line high, clock line high, select asserted, settle wait. -/
def selectPeer (s : State) : State :=
  delayFor settleUs (driveSelect false (emit (.line .clock true) (emit (.line .dataOut true) s)))

/-- The tail of R110: select released, then the trailing wait with the DELAY of that moment. -/
def releasePeer (s : State) : State :=
  delayFor (driveSelect true s).delay.toNat (driveSelect true s)

/-- One accepted frame exchange (R110): the response and the state after. -/
def exchange (cmd : List Byte) (s : State) : List Byte × State :=
  ((transferBytes cmd (selectPeer s)).1, releasePeer (transferBytes cmd (selectPeer s)).2)

/-- `MemWrite(i, 1, resp[i])` for `i` in 0 to 8, then `FWR <- 1` (R115).  The nine bytes are written as
one update (R57).  Every caller has nine response bytes; the filler 0 is never stored (log 21). -/
def storeFrame (resp : List Byte) (s : State) : State :=
  { s with frame := Vector.ofFn fun i => resp.getD i 0, fwr := true }

/-! ### Writes of DELAY and SESSION -/

/-- `DELAY <- v` (R26). -/
def setDelay (v : Byte) (s : State) : State := { s with delay := v }

/-- `SESSION <- v` (R28), as INIT writes it. -/
def setSession (v : Session) (s : State) : State := { s with session := v }

/-! ### Reads of FRAME and BTN -/

/-- `MemRead(i, 1)` (R9): FRAME[i] once FRAME has been written, else a free value (R36, log 4). -/
def memRead (i : Fin 9) (s : State) : Byte × State :=
  if s.fwr then (s.frame[i], s)
  else (Config.freeByte s.freeDraws, { s with freeDraws := s.freeDraws + 1 })

/-- BTN once it has been written, else a free value (R36, log 4). -/
def readBtn (s : State) : Mask × State :=
  if s.bwr then (s.btn, s)
  else (Config.freeMask s.freeDraws, { s with freeDraws := s.freeDraws + 1 })

/-! ### How an operation ends -/

/-- The numeric result codes (R206). -/
def codeOf : ResultCode → Nibble
  | .ok => 0
  | .noResponse => 1
  | .modeNegotiationFailed => 2
  | .readMiss => 3
  | .reservedOp => 8
  | .badLength => 9
  | .badIndex => 10
  | .badValue => 11
  | .noSession => 12
  | .badConfig => 13
  | .notConfigured => 14

/-- The byte that carries a result code: the code in the low nibble, the high nibble 0 (R79). -/
def codeByte (c : ResultCode) : Byte := (codeOf c).zeroExtend 8

/-- Completion with code OK: the result is the code byte and the data bytes (R79). -/
def complete (data : List Byte) (s : State) : State :=
  { s with hostOut := s.hostOut ++ codeByte .ok :: data }

/-- The one way an operation ends with another code, an error result (`raise`) or a refusal
(`refuse`): the code is delivered, nothing is saved, vectored or rolled back, no data byte follows
(R79, R200, R205, R209).  There is no return from it (R210). -/
def endWith (c : ResultCode) (s : State) : State :=
  { s with hostOut := s.hostOut ++ [codeByte c] }

end Sys2Proof.Machine
end

