-- ==== Sys2Proof/Machine/CodecUnit.lean ====
section
/-!
DEFINITION. REV (40_codec.md).
-/

namespace Sys2Proof.Machine

/-- REV `v` (R100): answers `reverse8(v)`; no state, no event. -/
def execRev (v : Byte) (s : State) : Host.Outcome State Fault Refusal :=
  .next (complete [reverse8 v] s)

end Sys2Proof.Machine
end

