-- ==== Sys2Proof/Machine/Operands.lean ====
section
/-!
DEFINITION. How each operand is formed (R76), the index spaces (R50, R56), the register numbers (R31),
the frame map (R51, R74), and the names the source fixes (R23, R141, R142).
-/

namespace Sys2Proof.Machine

/-! ### Buttons -/

/-- `BTNTAB` (R23) at bit index `k`: the mask `1 << k`. -/
def buttonMask (k : Nibble) : Mask := (1 : Mask) <<< k.toNat

/-- The button names the source fixes (R23); the other fourteen are not in it (N4). -/
inductive ButtonName where
  | select
  | start
deriving DecidableEq, Repr

/-- A named button's bit index (R23, R76 a). -/
def buttonIndex : ButtonName → Nibble
  | .select => 0
  | .start => 3

/-- "pressed iff the corresponding bit is clear" (R141): `(BTN & (1 << k)) = 0`. -/
def pressedIn (m : Mask) (k : Nibble) : Bool := (m &&& buttonMask k) == 0

/-- The data byte of a BTN result: `0x01` pressed, `0x00` not (R79). -/
def pressedByte (pressed : Bool) : Byte := if pressed then 0x01 else 0x00

/-- The stored mask of a frame's two button bytes (R76 c; byte order R55, D7). -/
def packButtons (low high : Byte) : Mask :=
  low.zeroExtend 16 ||| (high.zeroExtend 16 <<< 8)

/-! ### Axes -/

/-- AXIS's operand is the frame index itself, legal 5 to 8 (R76 b). -/
def axisIndex (a : Nibble) : Option (Fin 9) :=
  match a.toNat with
  | 5 => some 5
  | 6 => some 6
  | 7 => some 7
  | 8 => some 8
  | _ => none

/-- The axis name the source fixes (R142). -/
inductive AxisName where
  | lx
deriving DecidableEq, Repr

/-- A named axis's operand (R76 b). -/
def axisOperand : AxisName → Nibble
  | .lx => 7

/-! ### Register numbers -/

/-- What a register number names (R31). -/
inductive RegisterName where
  | status
  | delay
  | btnLow
  | btnHigh
  | frame (i : Fin 9)
deriving DecidableEq, Repr

/-- The table of R31; 13 to 15 are reserved. -/
def registerName (r : Nibble) : Option RegisterName :=
  match r.toNat with
  | 0 => some .status
  | 1 => some .delay
  | 2 => some .btnLow
  | 3 => some .btnHigh
  | 4 => some (.frame 0)
  | 5 => some (.frame 1)
  | 6 => some (.frame 2)
  | 7 => some (.frame 3)
  | 8 => some (.frame 4)
  | 9 => some (.frame 5)
  | 10 => some (.frame 6)
  | 11 => some (.frame 7)
  | 12 => some (.frame 8)
  | _ => none

/-! ### The frame map -/

/-- The mode byte's place in the frame (R51). -/
abbrev modeIndex : Fin 9 := 1
/-- The low half of the buttons (R51). -/
abbrev buttonsLowIndex : Fin 9 := 3
/-- The high half of the buttons (R51). -/
abbrev buttonsHighIndex : Fin 9 := 4

/-- The response frame as the 72-bit string of R74, byte 0 highest. -/
def frameWord (f : Vector Byte 9) : BitVec 72 :=
  f[0] ++ f[1] ++ f[2] ++ f[3] ++ f[4] ++ f[5] ++ f[6] ++ f[7] ++ f[8]

end Sys2Proof.Machine
end

