-- ==== Sys2Proof/Machine/Parser.lean ====
section
/-!
DEFINITION. The response-frame parser (42_frame_parser.md): DEC, BTN, AXIS.  None causes bus activity.
-/

namespace Sys2Proof.Machine

/-- The decode step of R140: `BTN` from FRAME[3] and FRAME[4], `BWR <- FWR`.  Of an unwritten FRAME the
two bytes are free values, so BTN is left unspecified (R140, log 14). -/
def decodeButtons (s : State) : State :=
  let low := memRead buttonsLowIndex s
  let high := memRead buttonsHighIndex low.2
  { high.2 with btn := packButtons low.1 high.1, bwr := s.fwr }

/-- DEC (R140). -/
def execDec (s : State) : Host.Outcome State Fault Refusal :=
  .next (complete [] (decodeButtons s))

/-- BTN `k` (R141): reads the stored mask, not the frame. -/
def execBtn (k : Nibble) (s : State) : Host.Outcome State Fault Refusal :=
  .next (complete [pressedByte (pressedIn (readBtn s).1 k)] (readBtn s).2)

/-- AXIS `a` (R142): the raw byte of the frame; refused `BadIndex` outside 5 to 8. -/
def execAxis (a : Nibble) (s : State) : Host.Outcome State Fault Refusal :=
  .next (match axisIndex a with
    | some i => complete [(memRead i s).1] (memRead i s).2
    | none => endWith .badIndex s)

end Sys2Proof.Machine
end

