-- ==== Sys2Proof/Machine/Flags.lean ====
section
/-!
DEFINITION. The three predicates of the mode byte (R25, R75, R143), which are the block's only flags,
and the STATUS byte (R30).  None has storage.
-/

namespace Sys2Proof.Machine

/-- The reported mode, the high nibble of the mode byte (R75, R76 d). -/
def modeNibble (m : Byte) : Nibble := m.extractLsb' 4 4

/-- `valid` of a mode byte: high nibble `0x7` (R25). -/
def validMode (m : Byte) : Bool := modeNibble m == analogNibble

/-- `alive` of a mode byte: one of `0x41`, `0x73`, `0x79` (R25; exact by 90_conflicts.md C1). -/
def aliveMode (m : Byte) : Bool := aliveSet.contains m

/-- `confirmed` of a mode byte: `0x73` (R25). -/
def confirmedMode (m : Byte) : Bool := m == analogConfirm

/-- `valid(FRAME)`. -/
def valid (f : Vector Byte 9) : Bool := validMode f[modeIndex]

/-- `alive(FRAME)`. -/
def alive (f : Vector Byte 9) : Bool := aliveMode f[modeIndex]

/-- `confirmed(FRAME)`. -/
def confirmed (f : Vector Byte 9) : Bool := confirmedMode f[modeIndex]

/-- The SESSION field of STATUS (R30). -/
def sessionField : Session → BitVec 2
  | .uninitialized => 0
  | .probing => 1
  | .configuringAnalogMode => 2
  | .ready _ => 3

/-- The ANALOG_OK bit of STATUS: `analog_ok` in Ready, else 0 (R30). -/
def analogOkBit : Session → Bool
  | .uninitialized => false
  | .probing => false
  | .configuringAnalogMode => false
  | .ready ok => ok

/-- The STATUS byte (R30), bit 7 down to bit 0: reserved, ANALOG_OK, SESSION, CS, CONFIRMED, ALIVE,
VALID. -/
def statusByte (mode : Byte) (cs : Bool) (session : Session) : Byte :=
  0#1 ++ BitVec.ofBool (analogOkBit session) ++ sessionField session ++ BitVec.ofBool cs ++
    BitVec.ofBool (confirmedMode mode) ++ BitVec.ofBool (aliveMode mode) ++
    BitVec.ofBool (validMode mode)

end Sys2Proof.Machine
end

