-- ==== Sys2Proof/Machine/Transport.lean ====
section
/-!
DEFINITION. The Frame Transport, configuration and register access (41_frame_transport.md): XCHG, XENT,
XSET, XEXT, XRD, CFG, WRREG, RDREG.
-/

namespace Sys2Proof.Machine

/-- An exchange that answers its response and stores nothing (R110, R112 to R114); refused
`NotConfigured` before CFG. -/
def answerExchange (cmd : List Byte) (s : State) : State :=
  if s.cfgd then complete (exchange cmd s).1 (exchange cmd s).2
  else endWith .notConfigured s

/-- XCHG `b0, …` (R110): `BadLength` is tested before `NotConfigured` (R208). -/
def execXchg (cmd : List Byte) (s : State) : Host.Outcome State Fault Refusal :=
  .next (if cmd.length = 0 ∨ cmd.length > cmdMax then endWith .badLength s
    else answerExchange cmd s)

/-- XENT (R112). -/
def execXent (s : State) : Host.Outcome State Fault Refusal :=
  .next (answerExchange enterConfiguration s)

/-- XSET (R113). -/
def execXset (s : State) : Host.Outcome State Fault Refusal :=
  .next (answerExchange setAnalogMode s)

/-- XEXT (R114). -/
def execXext (s : State) : Host.Outcome State Fault Refusal :=
  .next (answerExchange exitConfiguration s)

/-- The accepted read-data exchange (R115): the response, and the state with FRAME written. -/
def readDataExchange (s : State) : List Byte × State :=
  ((exchange readData s).1, storeFrame (exchange readData s).1 (exchange readData s).2)

/-- XRD (R115). -/
def execXrd (s : State) : Host.Outcome State Fault Refusal :=
  .next (if s.cfgd then complete (readDataExchange s).1 (readDataExchange s).2
    else endWith .notConfigured s)

/-- The accepted configuration (R116); the order of the calls is D23's. -/
def configure (s : State) : State :=
  { driveSelect true
      (emit (.setClock s.params.clockHz)
        (emit (.setFrame bitsPerWord s.params.spiMode)
          (emit (.configure s.params.pins) s)))
    with cfgd := true }

/-- CFG (R116): refused `BadConfig` where PINS is unusable. -/
def execCfg (s : State) : Host.Outcome State Fault Refusal :=
  .next (if s.params.pinsUsable then complete [] (configure s) else endWith .badConfig s)

/-- WRREG `r, v` (R117): the index is tested before the value. -/
def execWrreg (r : Nibble) (v : Byte) (s : State) : Host.Outcome State Fault Refusal :=
  .next (if r ≠ 1 then endWith .badIndex s
    else if v < delayMin ∨ delayCap < v then endWith .badValue s
    else complete [] (setDelay v s))

/-- `reg(r)` of R118, by the table of R31.  STATUS reads the mode byte once (R30, log 13). -/
def readRegister (r : RegisterName) (s : State) : Byte × State :=
  match r with
  | .status => (statusByte (memRead modeIndex s).1 s.cs s.session, (memRead modeIndex s).2)
  | .delay => (s.delay, s)
  | .btnLow => ((readBtn s).1.extractLsb' 0 8, (readBtn s).2)
  | .btnHigh => ((readBtn s).1.extractLsb' 8 8, (readBtn s).2)
  | .frame i => memRead i s

/-- RDREG `r` (R118). -/
def execRdreg (r : Nibble) (s : State) : Host.Outcome State Fault Refusal :=
  .next (match registerName r with
    | some name => complete [(readRegister name s).1] (readRegister name s).2
    | none => endWith .badIndex s)

end Sys2Proof.Machine
end

