-- ==== Sys2Proof/Machine/Session.lean ====
section
/-!
DEFINITION. The session sequencer (43_session_sequencer.md): NEG, READ, INIT, by their expansions.
-/

namespace Sys2Proof.Machine

/-- The mode-negotiation sequence (R161): enter, set analog, exit; the responses are discarded. -/
def negotiate (s : State) : State :=
  (exchange exitConfiguration
    (exchange setAnalogMode
      (exchange enterConfiguration s).2).2).2

/-- NEG (R161): refused `NotConfigured` before CFG, and for nothing else (R205), with or without a session.
R210 contradicts these two rules after a failed INIT, where it accepts INIT alone of Layer 2; it is kept under
the parameter `negNeedsSession`, false by default: NEG is then refused `NoSession` without a session as READ
is, in R208's order (log 24). -/
def execNeg (s : State) : Host.Outcome State Fault Refusal :=
  .next (if s.params.negNeedsSession = true ∧ s.session = .uninitialized then endWith .noSession s
    else if s.cfgd then complete [] (negotiate s)
    else endWith .notConfigured s)

/-- READ's first test (R162): above STALE_US, renegotiate. -/
def recoverIfStale (elapsed : Nat) (s : State) : State :=
  if elapsed > s.params.staleUs then negotiate s else s

/-- READ's second test (R162): below DELAY, wait for the rest of it. -/
def limitRate (elapsed : Nat) (s : State) : State :=
  if elapsed < s.delay.toNat then delayFor (s.delay.toNat - elapsed) s else s

/-- What follows a failed attempt of READ (R162): renegotiate, then wait DELAY. -/
def retryWait (s : State) : State := delayFor (negotiate s).delay.toNat (negotiate s)

/-- READ's retry loop (R162) with `left` attempts to go: stop at the first valid frame; after a failed
attempt renegotiate and wait, after the last one only under `NEG_AFTER_LAST_ATTEMPT`. -/
def attemptReads : (left : Nat) → State → State
  | 0, s => s
  | later + 1, s =>
    let tried := (readDataExchange s).2
    if valid tried.frame then tried
    else if later ≠ 0 ∨ tried.params.negAfterLastAttempt then attemptReads later (retryWait tried)
    else attemptReads later tried

/-- READ's back-off (R162): a miss raises DELAY by one while it is below the ceiling. -/
def backOff (ok : Bool) (s : State) : State :=
  if !ok && s.delay < delayCap then setDelay (s.delay + 1) s else s

/-- READ's last write (R162): in Ready, `analog_ok` is this READ's result (R28). -/
def noteResult (ok : Bool) (s : State) : State :=
  match s.session with
  | .ready _ => { s with session := .ready ok }
  | .uninitialized => s
  | .probing => s
  | .configuringAnalogMode => s

/-- `TLAST <- Now()` (R162, D31). -/
def stampRead (s : State) : State := { s with tlast := s.now }

/-- READ's retry phase: `elapsed` is sampled once, both tests use it, then the retry loop (R162, D15). -/
def readFrame (s : State) : State :=
  attemptReads readAttempts
    (limitRate (s.now - s.tlast) (recoverIfStale (s.now - s.tlast) s))

/-- The whole of an accepted READ (R162): the result, and the state after. -/
def readOnce (s : State) : Bool × State :=
  let got := readFrame s
  let ok := valid got.frame
  (ok, noteResult ok (stampRead (decodeButtons (backOff ok got))))

/-- READ (R162): refused `NoSession` in Uninitialized; its exchanges need CFGD (R205, R208; log 11). -/
def execRead (s : State) : Host.Outcome State Fault Refusal :=
  .next (if s.session = .uninitialized then endWith .noSession s
    else if s.cfgd then
      (if (readOnce s).1 then complete [] (readOnce s).2 else endWith .readMiss (readOnce s).2)
    else endWith .notConfigured s)

/-- INIT's diagnostic READs (R163): `n` whole READs, their results ignored (D17).  Before each, time may
pass as before a READ that HOST issues (R212), so that every READ of an INIT can be stale (R165, V51;
log 22). -/
def probe : (n : Nat) → State → State
  | 0, s => s
  | later + 1, s => probe later (readOnce (elapse 0 s)).2

/-- INIT's increment between attempts (R163): under the ceiling unless `INIT_INC_UNCAPPED` (D12). -/
def raiseDelay (s : State) : State :=
  if s.params.initIncUncapped || s.delay < delayCap then setDelay (s.delay + 1) s else s

/-- INIT's negotiation loop (R163) with `left` attempts to go: NEG, a diagnostic READ, and the test for
`0x73`; DELAY is raised between attempts, not after the last (D13). -/
def negotiationLoop : (left : Nat) → State → ResultCode × State
  | 0, s => (.modeNegotiationFailed, setSession .uninitialized s)
  | later + 1, s =>
    let tried := (readOnce (negotiate s)).2
    if confirmed tried.frame then (.ok, setSession (.ready true) tried)
    else negotiationLoop later (if later ≠ 0 then raiseDelay tried else tried)

/-- INIT's probe phase (R163): Probing, CFG, two diagnostic READs. -/
def probePhase (s : State) : State :=
  probe probeReads (configure (setSession .probing s))

/-- The whole of an accepted INIT (R163): the result code, and the state after. -/
def startSession (s : State) : ResultCode × State :=
  let probed := probePhase s
  if alive probed.frame then
    negotiationLoop initAttempts (setSession .configuringAnalogMode (setDelay delayMin probed))
  else (.noResponse, setSession .uninitialized probed)

/-- INIT (R163): refused `BadConfig` where PINS is unusable, before any state change. -/
def execInit (s : State) : Host.Outcome State Fault Refusal :=
  .next (if s.params.pinsUsable then endWith (startSession s).1 (startSession s).2
    else endWith .badConfig s)

end Sys2Proof.Machine
end

