-- ==== Sys2Proof/Syntax.lean ====
section
/-!
DEFINITION. The operations: one constructor per row of spec/opcode_table.json (R78), with the operand
fields of R77 and R76.  Operands are kept as the host sends them: an index or a length the operation
refuses is still an operand (R81), so every value of a field is here.
-/

namespace Sys2Proof

inductive Instr where
  /-- `0x1` REV `v` (R100). -/
  | rev (v : Byte)
  /-- `0x2` XCHG `b0, …`: the length is the count of the bytes (R83, R110). -/
  | xchg (cmd : List Byte)
  /-- `0x3` XENT (R112). -/
  | xent
  /-- `0x4` XSET (R113). -/
  | xset
  /-- `0x5` XEXT (R114). -/
  | xext
  /-- `0x6` XRD (R115). -/
  | xrd
  /-- `0x7` DEC (R140). -/
  | dec
  /-- `0x8` BTN `k` (R141). -/
  | btn (k : Nibble)
  /-- `0x9` AXIS `a` (R142). -/
  | axis (a : Nibble)
  /-- `0xA` RDREG `r` (R118). -/
  | rdreg (r : Nibble)
  /-- `0xB` WRREG `r, v` (R117). -/
  | wrreg (r : Nibble) (v : Byte)
  /-- `0xC` CFG (R116). -/
  | cfg
  /-- `0xD` NEG (R161). -/
  | neg
  /-- `0xE` READ (R162). -/
  | read
  /-- `0xF` INIT (R163). -/
  | init
deriving DecidableEq, Repr

/-! The pseudo-instructions of R84 that stand for one operation.  (NEG, the seventh row of R84's table,
has an operation code of its own; that it is XENT, XSET, XEXT is a statement about its meaning.) -/

/-- SELECT: `BTN 0`. -/
abbrev pseudoSelect : Instr := .btn 0
/-- START: `BTN 3`. -/
abbrev pseudoStart : Instr := .btn 3
/-- LX: `AXIS 7`. -/
abbrev pseudoLx : Instr := .axis 7
/-- MODE: `RDREG 5`, the mode byte. -/
abbrev pseudoMode : Instr := .rdreg 5
/-- GETDLY: `RDREG 1`. -/
abbrev pseudoGetdly : Instr := .rdreg 1
/-- SETDLY `v`: `WRREG 1, v`. -/
abbrev pseudoSetdly (v : Byte) : Instr := .wrreg 1 v

end Sys2Proof
end

