-- ==== Sys2Proof/Machine/Dispatch.lean ====
section
/-!
DEFINITION. One arm per operation.
-/

namespace Sys2Proof.Machine

def exec (i : Instr) (s : State) : Host.Outcome State Fault Refusal :=
  match i with
  | .rev v => Sys2Proof.Machine.execRev v s
  | .xchg cmd => Sys2Proof.Machine.execXchg cmd s
  | .xent => Sys2Proof.Machine.execXent s
  | .xset => Sys2Proof.Machine.execXset s
  | .xext => Sys2Proof.Machine.execXext s
  | .xrd => Sys2Proof.Machine.execXrd s
  | .dec => Sys2Proof.Machine.execDec s
  | .btn k => Sys2Proof.Machine.execBtn k s
  | .axis a => Sys2Proof.Machine.execAxis a s
  | .rdreg r => Sys2Proof.Machine.execRdreg r s
  | .wrreg r v => Sys2Proof.Machine.execWrreg r v s
  | .cfg => Sys2Proof.Machine.execCfg s
  | .neg => Sys2Proof.Machine.execNeg s
  | .read => Sys2Proof.Machine.execRead s
  | .init => Sys2Proof.Machine.execInit s

end Sys2Proof.Machine
end

