-- ==== Sys2Proof/WellFormed.lean ====
section
/-!
DEFINITION. Which operations the host encoding can carry.  Every operand but one has the width of its
field by its type; XCHG's length must fit the 4-bit field `n` (R77).  Lengths 0 and 10 to 15 can be
sent, and are refused when the operation runs (R81), so they are well formed.
-/

namespace Sys2Proof

/-- The one check: XCHG's byte count fits 4 bits. -/
def Instr.fits : Instr → Bool
  | .rev _ => true
  | .xchg cmd => decide (cmd.length ≤ 15)
  | .xent => true
  | .xset => true
  | .xext => true
  | .xrd => true
  | .dec => true
  | .btn _ => true
  | .axis _ => true
  | .rdreg _ => true
  | .wrreg _ _ => true
  | .cfg => true
  | .neg => true
  | .read => true
  | .init => true

/-- An operation that a host command can carry. -/
abbrev WellFormed (i : Instr) : Prop := i.fits = true

end Sys2Proof
end

