-- ==== Sys2Proof/Decode.lean ====
section
/-!
DEFINITION. The host encoding (R77, R78, R81, R82): how many data bytes follow a command byte, the
decoder, the encoder, and the opcode map as a table.  All numbers are the spec's own (D2).
-/

namespace Sys2Proof

/-- The op select, bits 7:4 of a command byte (R77). -/
def opField (c : Byte) : Nibble := c.extractLsb' 4 4

/-- The small operand, bits 3:0 of a command byte (R77). -/
def argField (c : Byte) : Nibble := c.extractLsb' 0 4

/-- The formats of a host command (R77). -/
inductive Format where
  /-- `arg` must be 0, no data byte. -/
  | h0
  /-- `arg` is the operand, no data byte. -/
  | ha
  /-- `arg` is the operand (0 for REV), one data byte. -/
  | hd
  /-- `arg` = `n`, and `n` data bytes follow. -/
  | hx
deriving DecidableEq, Repr

/-- The format column of R78's opcode map; op select 0 is reserved. -/
def formatOf (op : Nibble) : Option Format :=
  match op.toNat with
  | 0x1 => some .hd
  | 0x2 => some .hx
  | 0x8 => some .ha
  | 0x9 => some .ha
  | 0xA => some .ha
  | 0xB => some .hd
  | 0x0 => none
  | _ => some .h0

/-- How many data bytes follow a command byte: "known from the command byte alone" (R77).  A refused
command takes the data bytes its format calls for, op select 0 none (R81). -/
def dataCount (c : Byte) : Nat :=
  match formatOf (opField c) with
  | some .hd => 1
  | some .hx => (argField c).toNat
  | some .h0 => 0
  | some .ha => 0
  | none => 0

/-- An operation whose `arg` must be 0 (R81). -/
def withZeroArg (c : Byte) (i : Instr) : Option Instr :=
  if argField c = 0 then some i else none

/-- The operation a command byte and its data bytes select, or none where R81 refuses `ReservedOp`. -/
def assemble (c : Byte) (data : List Byte) : Option Instr :=
  match (opField c).toNat with
  | 0x1 => withZeroArg c (.rev (data.headD 0))
  | 0x2 => some (.xchg data)
  | 0x3 => withZeroArg c .xent
  | 0x4 => withZeroArg c .xset
  | 0x5 => withZeroArg c .xext
  | 0x6 => withZeroArg c .xrd
  | 0x7 => withZeroArg c .dec
  | 0x8 => some (.btn (argField c))
  | 0x9 => some (.axis (argField c))
  | 0xA => some (.rdreg (argField c))
  | 0xB => some (.wrreg (argField c) (data.headD 0))
  | 0xC => withZeroArg c .cfg
  | 0xD => withZeroArg c .neg
  | 0xE => withZeroArg c .read
  | 0xF => withZeroArg c .init
  | _ => none

/-- What the decoder finds at the head of the host's byte stream. -/
inductive Decoded where
  /-- No whole command is there yet: the block waits (R77, R207; log 7). -/
  | waiting
  /-- A command with a meaning, and the bytes after it. -/
  | command (i : Instr) (rest : List Byte)
  /-- A command R81 refuses `ReservedOp`; its data bytes have been taken. -/
  | reservedOp (rest : List Byte)
deriving DecidableEq, Repr

/-- The decoder, total on any byte stream. -/
def decode : List Byte → Decoded
  | [] => .waiting
  | c :: bytes =>
    if bytes.length < dataCount c then .waiting
    else
      match assemble c (bytes.take (dataCount c)) with
      | some i => .command i (bytes.drop (dataCount c))
      | none => .reservedOp (bytes.drop (dataCount c))

/-- A command byte `op ++ arg` (R77). -/
def commandByte (op arg : Nibble) : Byte := op ++ arg

/-- The bytes of an operation, command byte first (R77, R78). -/
def encode : Instr → List Byte
  | .rev v => [commandByte 0x1 0, v]
  | .xchg cmd => commandByte 0x2 (BitVec.ofNat 4 cmd.length) :: cmd
  | .xent => [commandByte 0x3 0]
  | .xset => [commandByte 0x4 0]
  | .xext => [commandByte 0x5 0]
  | .xrd => [commandByte 0x6 0]
  | .dec => [commandByte 0x7 0]
  | .btn k => [commandByte 0x8 k]
  | .axis a => [commandByte 0x9 a]
  | .rdreg r => [commandByte 0xA r]
  | .wrreg r v => [commandByte 0xB r, v]
  | .cfg => [commandByte 0xC 0]
  | .neg => [commandByte 0xD 0]
  | .read => [commandByte 0xE 0]
  | .init => [commandByte 0xF 0]

/-- One row of spec/opcode_table.json: a command byte `c` belongs to the row when `c &&& mask = pattern`. -/
structure OpcodeRow where
  mnemonic : String
  pattern : Byte
  mask : Byte
  format : Format
deriving DecidableEq, Repr

/-- The opcode map of R78 with the match and mask of spec/opcode_table.json. -/
def opcodeTable : List OpcodeRow :=
  [ ⟨"REV",   0x10, 0xFF, .hd⟩
  , ⟨"XCHG",  0x20, 0xF0, .hx⟩
  , ⟨"XENT",  0x30, 0xFF, .h0⟩
  , ⟨"XSET",  0x40, 0xFF, .h0⟩
  , ⟨"XEXT",  0x50, 0xFF, .h0⟩
  , ⟨"XRD",   0x60, 0xFF, .h0⟩
  , ⟨"DEC",   0x70, 0xFF, .h0⟩
  , ⟨"BTN",   0x80, 0xF0, .ha⟩
  , ⟨"AXIS",  0x90, 0xF0, .ha⟩
  , ⟨"RDREG", 0xA0, 0xF0, .ha⟩
  , ⟨"WRREG", 0xB0, 0xF0, .hd⟩
  , ⟨"CFG",   0xC0, 0xFF, .h0⟩
  , ⟨"NEG",   0xD0, 0xFF, .h0⟩
  , ⟨"READ",  0xE0, 0xFF, .h0⟩
  , ⟨"INIT",  0xF0, 0xFF, .h0⟩ ]

/-- A command byte falls under a row of the table. -/
def OpcodeRow.covers (row : OpcodeRow) (c : Byte) : Bool := (c &&& row.mask) == row.pattern

/-- The mnemonic of an operation (R78). -/
def mnemonicOf : Instr → String
  | .rev _ => "REV"
  | .xchg _ => "XCHG"
  | .xent => "XENT"
  | .xset => "XSET"
  | .xext => "XEXT"
  | .xrd => "XRD"
  | .dec => "DEC"
  | .btn _ => "BTN"
  | .axis _ => "AXIS"
  | .rdreg _ => "RDREG"
  | .wrreg _ _ => "WRREG"
  | .cfg => "CFG"
  | .neg => "NEG"
  | .read => "READ"
  | .init => "INIT"

/-- The operands of an operation as a listing writes them (R83), left to right. -/
def listingOperands : Instr → List Nat
  | .rev v => [v.toNat]
  | .xchg cmd => cmd.map BitVec.toNat
  | .btn k => [k.toNat]
  | .axis a => [a.toNat]
  | .rdreg r => [r.toNat]
  | .wrreg r v => [r.toNat, v.toNat]
  | .xent => []
  | .xset => []
  | .xext => []
  | .xrd => []
  | .dec => []
  | .cfg => []
  | .neg => []
  | .read => []
  | .init => []

/-- One line of a listing: the mnemonic in capitals, then the operands separated by commas, numbers in
decimal (R83). -/
def listing (i : Instr) : String :=
  match listingOperands i with
  | [] => mnemonicOf i
  | ops => mnemonicOf i ++ " " ++ ", ".intercalate (ops.map toString)

/-- The longest host command: a command byte and the 15 data bytes of a refused XCHG (R81). -/
abbrev longestCommand : Nat := 16

/-- The bytes of a table word: byte 0 is bits 7:0, a later byte's bits count on from it; above `nbits`
every bit is 0, up to the longest command. -/
def tableWordBytes (nbits w : Nat) : List Byte :=
  ((List.range ((nbits + 7) / 8)).map fun k => BitVec.ofNat 8 (w / 256 ^ k))
    ++ List.replicate longestCommand 0

/-- The bytes of exactly the command that a table word holds: its command byte and the data bytes its
format calls for. -/
def tableWordCommand (nbits w : Nat) : List Byte :=
  match tableWordBytes nbits w with
  | [] => []
  | c :: bytes => c :: bytes.take (dataCount c)

/-- The instruction the decoder reads from a table word; none where it refuses. -/
def decodeTableWord (nbits w : Nat) : Option Instr :=
  match decode (tableWordBytes nbits w) with
  | .command i _ => some i
  | .waiting => none
  | .reservedOp _ => none

end Sys2Proof
end

