-- ==== Sys2Proof/Machine/HostPort.lean ====
section
/-!
DEFINITION. How the block takes a command from HOST (R77, R81, R207).
-/

namespace Sys2Proof.Machine

/-- What stands at the head of the host's byte stream. -/
def fetch (s : State) : Decoded := decode s.hostIn

/-- Take a command: the bytes before `rest` leave the stream, and the gap before the operation has
lasted a free time (R212, log 6). -/
def takeCommand (rest : List Byte) (s : State) : State := elapse 0 { s with hostIn := rest }

/-- A command the decoder refuses (R81, R205): its bytes are taken, the code is returned. -/
def refuseReserved (rest : List Byte) (s : State) : State :=
  endWith .reservedOp (takeCommand rest s)

/-- Put the bytes of one command at the head of the host's stream. -/
def sendFirst (bytes : List Byte) (s : State) : State := { s with hostIn := bytes ++ s.hostIn }

end Sys2Proof.Machine
end

