-- ==== Sys2Proof/Machine/Step.lean ====
section
/-!
DEFINITION. One step: take the next whole command HOST has sent and run it (R59).  With none waiting the
block stays as it is (R207).
-/

namespace Sys2Proof.Machine

def step (s : State) : Host.Outcome State Fault Refusal :=
  match fetch s with
  | .waiting => .next s
  | .reservedOp rest => .next (refuseReserved rest s)
  | .command i rest => exec i (takeCommand rest s)

/-- `s` with the instruction of a table word as the next command HOST sends: exactly the bytes of that
command, before whatever HOST has sent already (log 7). -/
def State.withFetchWord (s : State) (nbits w : Nat) : State :=
  sendFirst (tableWordCommand nbits w) s

end Sys2Proof.Machine
end

