-- ==== Sys2Proof/Machine/BitLevel.lean ====
section
/-!
DEFINITION. The bit-level refinement of `Xfer` (R121), a decision of the spec for models that go below
the byte.  No meaning reads it: the byte-level primitive is the normative boundary (R120, R121).
-/

namespace Sys2Proof.Machine

/-- What happens on the lines inside one `Xfer`. -/
inductive BitEvent where
  /-- `CLK` driven to a level. -/
  | clock (level : Bool)
  /-- `DO` driven to a level. -/
  | out (level : Bool)
  /-- `DI` sampled at a level. -/
  | sample (level : Bool)
deriving DecidableEq, Repr

/-- The order in which the transport shifts the bits of a byte: `j` from 7 down to 0 where
`NATIVE_MSB_FIRST`; otherwise from 0 up to 7 (DEDUCED, log 15). -/
def shiftOrder (msbFirst : Bool) : List Nat :=
  if msbFirst then [7, 6, 5, 4, 3, 2, 1, 0] else [0, 1, 2, 3, 4, 5, 6, 7]

/-- One bit in SPI mode 3 (R121): `CLK` low and `DO <- o[j]`, then `CLK` high and `i[j] <- DI`. -/
def shiftBit (o : Byte) (j : Nat) (di : Bool) : List BitEvent :=
  [.clock false, .out (o.getLsbD j), .clock true, .sample di]

/-- Put the sampled level at bit `j` of the byte being received. -/
def placeBit (i : Byte) (j : Nat) (di : Bool) : Byte :=
  if di then i ||| (1#8 <<< j) else i

/-- The bits still to shift, against the levels of `DI` at their rising edges. -/
def shiftBits (o : Byte) : List Nat → List Bool → Byte → List BitEvent × Byte
  | j :: js, di :: later, i =>
    (shiftBit o j di ++ (shiftBits o js later (placeBit i j di)).1,
      (shiftBits o js later (placeBit i j di)).2)
  | [], _, i => ([], i)
  | _, [], i => ([], i)

/-- `Xfer(o)` below the byte, for the eight levels of `DI` in time order; R121 gives it for SPI mode 3
only (log 15). -/
def bitTransfer (p : Params) (o : Byte) (di : List Bool) : Option (List BitEvent × Byte) :=
  if p.spiMode = 3 ∧ di.length = 8 then some (shiftBits o (shiftOrder p.nativeMsbFirst) di 0)
  else none

/-- The levels of `DO` in time order. -/
def outLevels : List BitEvent → List Bool
  | [] => []
  | .out b :: later => b :: outLevels later
  | .clock _ :: later => outLevels later
  | .sample _ :: later => outLevels later

end Sys2Proof.Machine
end

