-- ==== Sys2Proof/Machine/SmallStep.lean ====
section
/-!
DEFINITION. One exchange in small steps (R111), with the in-flight state of R33 (a).  `exec` runs the
exchange as one operation (R57); this is the finer machine of the step table, one event a step.
-/

namespace Sys2Proof.Machine

/-- `PH` (R33, R111). -/
inductive Phase where
  | idle
  | doHigh
  | clkHigh
  | selected
  | shifting
  | released
deriving DecidableEq, Repr

/-- The in-flight state of an exchange (R33 a) beside the state it works on. -/
structure InFlight where
  state : State
  phase : Phase
  /-- `CMDL`, the latched command bytes. -/
  latched : List Byte
  /-- `IDX`, the byte index. -/
  index : Nat
  /-- `RESP[0 .. IDX-1]`. -/
  response : List Byte
  /-- The operation is XRD, so its response is stored when it returns. -/
  storing : Bool
deriving DecidableEq, Repr

/-- The row `Idle` of R111: the operation is accepted and the output line is driven high. -/
def acceptExchange (cmd : List Byte) (storing : Bool) (s : State) : InFlight where
  state := emit (.line .dataOut true) s
  phase := .doHigh
  latched := cmd
  index := 0
  response := []
  storing := storing

/-- The row `Released` of R111: the trailing wait, and for XRD the frame. -/
def returnExchange (m : InFlight) : State :=
  if m.storing then storeFrame m.response (delayFor m.state.delay.toNat m.state)
  else delayFor m.state.delay.toNat m.state

/-- The other rows of R111, each one step with one event.  In `Idle` nothing happens until an operation
is accepted. -/
def smallStep (m : InFlight) : InFlight :=
  match m.phase with
  | .idle => m
  | .doHigh => { m with state := emit (.line .clock true) m.state, phase := .clkHigh }
  | .clkHigh => { m with state := driveSelect false m.state, phase := .selected }
  | .selected => { m with state := delayFor settleUs m.state, phase := .shifting }
  | .shifting =>
    match m.latched[m.index]? with
    | some b =>
      { m with
        state := (xfer (reverse8 b) m.state).2
        response := m.response ++ [reverse8 (xfer (reverse8 b) m.state).1]
        index := m.index + 1 }
    | none => { m with state := driveSelect true m.state, phase := .released }
  | .released => { m with state := returnExchange m, phase := .idle }

/-- `n` small steps. -/
def smallSteps : (n : Nat) → InFlight → InFlight
  | 0, m => m
  | later + 1, m => smallSteps later (smallStep m)

end Sys2Proof.Machine
end

