-- ==== Sys2Proof/Safety.lean ====
section
/-!
DEFINITION. The terms claims are stated in: the architectural registers as one record, what PEER and
CLOCK will answer, the events an exchange must produce, the bus discipline, the invariant between
operations, and the Layer 1 expansions of the macro-operations.
-/

namespace Sys2Proof.Machine

/-! ### Registers and inputs -/

/-- The architectural state of R20. -/
structure Registers where
  frame : Vector Byte 9
  fwr : Bool
  btn : Mask
  bwr : Bool
  delay : Byte
  cs : Bool
  cfgd : Bool
  session : Session
  tlast : Nat
deriving DecidableEq, Repr

/-- The architectural state of a state. -/
def registers (s : State) : Registers where
  frame := s.frame
  fwr := s.fwr
  btn := s.btn
  bwr := s.bwr
  delay := s.delay
  cs := s.cs
  cfgd := s.cfgd
  session := s.session
  tlast := s.tlast

/-- The raw byte PEER answers at the `k`-th transfer from `s` on (R120). -/
def answerAt (s : State) (k : Nat) : Byte :=
  match s.answers[k]? with
  | some r => r
  | none => Config.peerByte (s.answerDraws + (k - s.answers.length))

/-- The `n` raw bytes PEER answers from the `k`-th transfer on. -/
def answersFrom (s : State) (k n : Nat) : List Byte :=
  (List.range n).map fun j => answerAt s (k + j)

/-- The same bytes as protocol bytes: through the codec (R53). -/
def protocolFrom (s : State) (k n : Nat) : List Byte := (answersFrom s k n).map reverse8

/-- The frame a read-data exchange stores when its first transfer is the `k`-th from `s` on. -/
def frameFrom (s : State) (k : Nat) : Vector Byte 9 :=
  Vector.ofFn fun i => reverse8 (answerAt s (k + i.val))

/-- The extra time the `k`-th event from `s` on takes beyond its least (R212). -/
def tickAt (s : State) (k : Nat) : Nat :=
  match s.ticks[k]? with
  | some t => t
  | none => Config.clockSlack (s.tickDraws + (k - s.ticks.length))

/-- The extra time the first `n` events from `s` on take together. -/
def tickSum (s : State) (n : Nat) : Nat := ((List.range n).map (tickAt s)).sum

/-! ### Traces -/

/-- The least time a sequence of events takes (R212). -/
def leastTime (ev : List Event) : Nat := (ev.map leastDuration).sum

/-- The raw bytes a sequence of events received. -/
def received (ev : List Event) : List Byte :=
  ev.filterMap fun e => match e with
    | .xfer _ i => some i
    | .line _ _ => none
    | .delay _ => none
    | .configure _ => none
    | .setFrame _ _ => none
    | .setClock _ => none

/-- How many byte transfers. -/
def transferCount (ev : List Event) : Nat := (received ev).length

/-- How many exchanges: assertions of the select line. -/
def exchangeCount (ev : List Event) : Nat := ev.count (.line .select false)

/-- The trace of one exchange (R110): raw bytes sent, raw bytes received, the DELAY of the trailing
wait. -/
def exchangeTrace (sent got : List Byte) (delay : Nat) : List Event :=
  [.line .dataOut true, .line .clock true, .line .select false, .delay 5]
    ++ List.zipWith Event.xfer sent got ++ [.line .select true, .delay delay]

/-- The codec image of a command (R73). -/
def codecImage (cmd : List Byte) : List Byte := cmd.map reverse8

/-- What `s` becomes by the events `ev` and `gaps` gaps between them in which only time passes, as far as
PEER, CLOCK and the trace go: the trace grows by `ev`, the bytes received are PEER's next answers, time
passes as R212 says, one tick for each event and each gap, and nothing is read from or written to HOST.
Only INIT has gaps (log 22). -/
structure Evolves (s t : State) (ev : List Event) (gaps : Nat := 0) : Prop where
  trace : t.trace = s.trace ++ ev
  received : received ev = answersFrom s 0 (transferCount ev)
  answers : ∀ k, answerAt t k = answerAt s (transferCount ev + k)
  now : t.now = s.now + leastTime ev + tickSum s (ev.length + gaps)
  ticks : ∀ k, tickAt t k = tickAt s (ev.length + gaps + k)
  params : t.params = s.params
  hostIn : t.hostIn = s.hostIn
  hostOut : t.hostOut = s.hostOut
  freeDraws : t.freeDraws = s.freeDraws

/-- NEG is not refused for want of a session: it needs none (R161, R205, the default), or there is one
(log 24). -/
abbrev NegAvailable (s : State) : Prop :=
  s.params.negNeedsSession = true → s.session ≠ .uninitialized

/-- The trace of a NEG (R161) whose first transfer is the `k`-th from `s` on. -/
def negTrace (s : State) (k : Nat) : List Event :=
  exchangeTrace [0x80, 0xC2, 0x00, 0x80, 0x00] (answersFrom s k 5) s.delay.toNat
    ++ exchangeTrace [0x80, 0x22, 0x00, 0x80, 0xC0, 0x00, 0x00, 0x00, 0x00]
        (answersFrom s (k + 5) 9) s.delay.toNat
    ++ exchangeTrace [0x80, 0xC2, 0x00, 0x00, 0x5A, 0x5A, 0x5A, 0x5A, 0x5A]
        (answersFrom s (k + 14) 9) s.delay.toNat

/-- The trace of an XRD (R115) whose first transfer is the `k`-th from `s` on. -/
def xrdTrace (s : State) (k : Nat) : List Event :=
  exchangeTrace [0x80, 0x42, 0x00, 0x00, 0x00, 0x00, 0x00, 0x00, 0x00]
    (answersFrom s k 9) s.delay.toNat

/-- The trace of a READ's head (R162): NEG if the session is stale, then the rate-limit wait. -/
def readHeadTrace (s : State) : List Event :=
  (if s.now - s.tlast > s.params.staleUs then negTrace s 0 else [])
    ++ (if s.now - s.tlast < s.delay.toNat then [.delay (s.delay.toNat - (s.now - s.tlast))] else [])

/-- How many transfers a READ's head makes. -/
def readHeadTransfers (s : State) : Nat :=
  if s.now - s.tlast > s.params.staleUs then 23 else 0

/-- The first transfer of a READ's attempt `j`, counted from 0: a failed attempt makes 9 transfers and
its renegotiation 23. -/
def attemptStart (s : State) (j : Nat) : Nat := readHeadTransfers s + 32 * j

/-- The trace of a failed attempt (R162): XRD, NEG, the retry wait. -/
def failedAttemptTrace (s : State) (j : Nat) : List Event :=
  xrdTrace s (attemptStart s j) ++ negTrace s (attemptStart s j + 9) ++ [.delay s.delay.toNat]

/-- The traces of the first `n` attempts, all failed. -/
def failedAttemptsTrace (s : State) (n : Nat) : List Event :=
  (List.range n).flatMap (failedAttemptTrace s)

/-! ### The bus discipline -/

/-- Where the bus stands between two events (R110, R111, R242). -/
inductive BusPhase where
  | idle
  | outHigh
  | clockHigh
  | asserted
  /-- Select asserted and settled; so many bytes moved. -/
  | shifting (moved : Nat)
  | released
deriving DecidableEq, Repr

/-- The events the discipline allows next.  Between exchanges: waits, the configuration calls, and the
parking of the select line.  An exchange: DO high, CLK high, select, settle, 1 to 9 bytes, release,
wait. -/
def busNext : BusPhase → Event → Option BusPhase
  | .idle, .line .dataOut true => some .outHigh
  | .idle, .line .select true => some .idle
  | .idle, .delay _ => some .idle
  | .idle, .configure _ => some .idle
  | .idle, .setFrame _ _ => some .idle
  | .idle, .setClock _ => some .idle
  | .outHigh, .line .clock true => some .clockHigh
  | .clockHigh, .line .select false => some .asserted
  | .asserted, .delay 5 => some (.shifting 0)
  | .shifting n, .xfer _ _ => if n < 9 then some (.shifting (n + 1)) else none
  | .shifting n, .line .select true => if n = 0 then none else some .released
  | .released, .delay _ => some .idle
  | _, _ => none

/-- The phase after a sequence of events, none where the discipline is broken. -/
def busRun : BusPhase → List Event → Option BusPhase
  | p, [] => some p
  | p, e :: later =>
    match busNext p e with
    | some q => busRun q later
    | none => none

/-! ### The invariant between operations -/

/-- The greatest value of DELAY (R35, R166). -/
def delayCeiling (p : Params) : Nat := if p.initIncUncapped then 16 else 10

/-- A session exists (R160). -/
def inSession : Session → Bool
  | .ready _ => true
  | .uninitialized => false
  | .probing => false
  | .configuringAnalogMode => false

/-- R35, the invariants between operations, with R167's "a session … implies CFGD = 1".  That FRAME has
nine bytes is its type. -/
abbrev BetweenOperations (s : State) : Prop :=
  s.cs = true ∧
  1 ≤ s.delay.toNat ∧ s.delay.toNat ≤ delayCeiling s.params ∧
  (s.session = .uninitialized ∨ inSession s.session = true) ∧
  s.tlast ≤ s.now ∧
  (inSession s.session = true → s.fwr = true ∧ s.bwr = true ∧ s.cfgd = true)

/-! ### Results -/

/-- A refusal code (R205, R206). -/
def isRefusal : ResultCode → Bool
  | .reservedOp => true
  | .badLength => true
  | .badIndex => true
  | .badValue => true
  | .noSession => true
  | .badConfig => true
  | .notConfigured => true
  | .ok => false
  | .noResponse => false
  | .modeNegotiationFailed => false
  | .readMiss => false

/-- How many data bytes an operation returns with code OK (R79). -/
def dataBytes : Instr → Nat
  | .rev _ => 1
  | .xchg cmd => cmd.length
  | .xent => 5
  | .xset => 9
  | .xext => 9
  | .xrd => 9
  | .btn _ => 1
  | .axis _ => 1
  | .rdreg _ => 1
  | .dec => 0
  | .wrreg _ _ => 0
  | .cfg => 0
  | .neg => 0
  | .read => 0
  | .init => 0

/-- What a READ makes of SESSION (R28, R162): in Ready, `analog_ok` is its result. -/
def sessionAfterRead (ok : Bool) : Session → Session
  | .ready _ => .ready ok
  | .uninitialized => .uninitialized
  | .probing => .probing
  | .configuringAnalogMode => .configuringAnalogMode

/-! ### Expansions into other operations -/

/-- Run one operation as a host program does, and drop its result. -/
def quietly (i : Instr) (s : State) : State :=
  match exec i s with
  | .next t => { t with hostOut := s.hostOut }
  | .fault _ => s
  | .refused _ => s

/-- READ's retry loop as a Layer 1 host program (R162, E345). -/
def layerOneAttempts : (left : Nat) → State → State
  | 0, s => s
  | later + 1, s =>
    if valid (quietly .xrd s).frame then quietly .xrd s
    else if later ≠ 0 ∨ s.params.negAfterLastAttempt then
      layerOneAttempts later
        (delayFor s.delay.toNat (quietly .xext (quietly .xset (quietly .xent (quietly .xrd s)))))
    else layerOneAttempts later (quietly .xrd s)

/-- READ up to its last XRD as a Layer 1 host program: the host supplies the clock reads and the waits
(R4, R84, E345). -/
def layerOneFrame (s : State) : State :=
  let elapsed := s.now - s.tlast
  let fresh :=
    if elapsed > s.params.staleUs then quietly .xext (quietly .xset (quietly .xent s)) else s
  layerOneAttempts 5
    (if elapsed < s.delay.toNat then delayFor (s.delay.toNat - elapsed) fresh else fresh)

/-- READ as a Layer 1 host program, up to `TLAST` and `SESSION`, which only READ writes (R27, R28): DELAY
is raised by WRREG, the buttons are decoded by DEC. -/
def layerOneRead (s : State) : State :=
  let got := layerOneFrame s
  quietly .dec
    (if !valid got.frame && got.delay < 10 then quietly (.wrreg 1 (got.delay + 1)) got else got)

/-- INIT's negotiation loop over the operations NEG and READ (R163). -/
def expandedLoop : (left : Nat) → State → ResultCode × State
  | 0, s => (.modeNegotiationFailed, setSession .uninitialized s)
  | later + 1, s =>
    let tried := quietly .read (quietly .neg s)
    if confirmed tried.frame then (.ok, setSession (.ready true) tried)
    else if later = 0 then expandedLoop later tried
    else if tried.params.initIncUncapped || tried.delay < 10 then
      expandedLoop later { tried with delay := tried.delay + 1 }
    else expandedLoop later tried

/-- INIT over the operations CFG, READ and NEG and its own writes of DELAY and SESSION (R163), with a gap
before each probe READ, as before an operation of HOST (log 22). -/
def expandedInit (s : State) : ResultCode × State :=
  let configured := quietly .cfg (setSession .probing s)
  let probed := quietly .read (elapse 0 (quietly .read (elapse 0 configured)))
  if alive probed.frame then
    expandedLoop 11 (setSession .configuringAnalogMode { probed with delay := 1 })
  else (.noResponse, setSession .uninitialized probed)

end Sys2Proof.Machine
end

