-- ==== Sys2Proof/Certificates/Slice0/Obligations.lean ====
section
/-!
DEFINITION. The statements for the provers.  Where a statement rests on a choice of the spec's own (a
decision D<n> of 92_eei_decisions.md) or of the model (an entry of the assumption log), its docstring
says so.  `complete data t` and `endWith c t` are the two ways an operation returns a result;
`ResultBytesOfEveryCode` says what bytes they are.
-/

open Sys2Proof Sys2Proof.Machine

/-! ### The codec -/

/-- R101: the codec is an involution, hence a bijection on bytes. -/
def Obligations.ReverseEightIsItsOwnInverse : Prop :=
  (∀ v : Byte, reverse8 (reverse8 v) = v) ∧ Function.Bijective reverse8

/-- REV answers the reversed byte, whose bit `7 - i` is bit `i` of the operand, and changes nothing else;
the bytes that are their own reversal are the sixteen listed.  (Result form: D2, D21.) -/
def Obligations.RevAnswersTheReversedByte : Prop :=
  (∀ (v : Byte) (s : State), exec (.rev v) s = .next (complete [reverse8 v] s)) ∧
  (∀ (v : Byte) (i : Nat), i < 8 → (reverse8 v).getLsbD (7 - i) = v.getLsbD i) ∧
  (∀ v : Byte, reverse8 v = v ↔
    v ∈ [0x00, 0x18, 0x24, 0x3C, 0x42, 0x5A, 0x66, 0x7E, 0x81, 0x99, 0xA5, 0xBD, 0xC3, 0xDB, 0xE7, 0xFF])

/-- R102: the 256-entry table and the bit shuffle are the same function.  The table's contents, and the
last clause (an entry is its column's nibble reversed above its row's nibble reversed), are the spec's own
derivation from R100, as R102 marks them. -/
def Obligations.LookupTableAgreesWithTheBitShuffle : Prop :=
  codecTable.length = 256 ∧
  (∀ v : Byte, codecTable[v.toNat]? = some (reverse8 v)) ∧
  (∀ a b : Nibble, codecTable[16 * a.toNat + b.toNat]? = some (b.reverse ++ a.reverse))

/-! ### Results -/

/-- What an operation returns: the code byte and the data bytes, appended to what HOST has been
returned; nothing else changes.  (Numbers: D21; form: D2.) -/
def Obligations.ResultBytesOfEveryCode : Prop :=
  ∀ s : State,
    (∀ data, complete data s = { s with hostOut := s.hostOut ++ 0x00 :: data }) ∧
    endWith .ok s = { s with hostOut := s.hostOut ++ [0x00] } ∧
    endWith .noResponse s = { s with hostOut := s.hostOut ++ [0x01] } ∧
    endWith .modeNegotiationFailed s = { s with hostOut := s.hostOut ++ [0x02] } ∧
    endWith .readMiss s = { s with hostOut := s.hostOut ++ [0x03] } ∧
    endWith .reservedOp s = { s with hostOut := s.hostOut ++ [0x08] } ∧
    endWith .badLength s = { s with hostOut := s.hostOut ++ [0x09] } ∧
    endWith .badIndex s = { s with hostOut := s.hostOut ++ [0x0A] } ∧
    endWith .badValue s = { s with hostOut := s.hostOut ++ [0x0B] } ∧
    endWith .noSession s = { s with hostOut := s.hostOut ++ [0x0C] } ∧
    endWith .badConfig s = { s with hostOut := s.hostOut ++ [0x0D] } ∧
    endWith .notConfigured s = { s with hostOut := s.hostOut ++ [0x0E] }

/-- Every operation returns exactly one result: a code, with the data bytes its operation has on code OK
and none on any other.  (R79; D2.) -/
def Obligations.EveryOperationReturnsOneResult : Prop :=
  ∀ (i : Instr) (s t : State), exec i s = .next t →
    ∃ (c : ResultCode) (data : List Byte),
      t.hostOut = s.hostOut ++ codeByte c :: data ∧
      (c = .ok → data.length = dataBytes i) ∧ (c ≠ .ok → data = [])

/-- An operation that returns a refusal has changed nothing and appended no event.  (R205; D22.) -/
def Obligations.RefusedOperationsChangeNothing : Prop :=
  ∀ (i : Instr) (s t : State) (c : ResultCode), exec i s = .next t → isRefusal c = true →
    t.hostOut = s.hostOut ++ [codeByte c] → t = endWith c s

/-! ### The frame transport -/

/-- An accepted XCHG of 1 to 9 bytes answers PEER's bytes through the codec; its trace is the normative
sequence with the codec image of the command; of the registers only CS is written, and ends at 1. -/
def Obligations.XchgRunsOneExchange : Prop :=
  ∀ (cmd : List Byte) (s : State), 1 ≤ cmd.length → cmd.length ≤ 9 → s.cfgd = true →
    ∃ t, exec (.xchg cmd) s = .next (complete (protocolFrom s 0 cmd.length) t) ∧
      Evolves s t (exchangeTrace (cmd.map reverse8) (answersFrom s 0 cmd.length) s.delay.toNat) ∧
      registers t = { registers s with cs := true }

/-- R72: the four literals, protocol bytes, first byte first; each is what its operation exchanges. -/
def Obligations.OperationsExchangeTheFourLiterals : Prop :=
  ∀ s : State, s.cfgd = true →
    exec .xent s = .next (complete (exchange [0x01, 0x43, 0x00, 0x01, 0x00] s).1
      (exchange [0x01, 0x43, 0x00, 0x01, 0x00] s).2) ∧
    exec .xset s = .next (complete (exchange [0x01, 0x44, 0x00, 0x01, 0x03, 0x00, 0x00, 0x00, 0x00] s).1
      (exchange [0x01, 0x44, 0x00, 0x01, 0x03, 0x00, 0x00, 0x00, 0x00] s).2) ∧
    exec .xext s = .next (complete (exchange [0x01, 0x43, 0x00, 0x00, 0x5A, 0x5A, 0x5A, 0x5A, 0x5A] s).1
      (exchange [0x01, 0x43, 0x00, 0x00, 0x5A, 0x5A, 0x5A, 0x5A, 0x5A] s).2) ∧
    exec .xrd s = .next (complete (exchange [0x01, 0x42, 0x00, 0x00, 0x00, 0x00, 0x00, 0x00, 0x00] s).1
      (storeFrame (exchange [0x01, 0x42, 0x00, 0x00, 0x00, 0x00, 0x00, 0x00, 0x00] s).1
        (exchange [0x01, 0x42, 0x00, 0x00, 0x00, 0x00, 0x00, 0x00, 0x00] s).2))

/-- XENT, XSET and XEXT are the exchanges of the three configuration literals, whose raw bytes are
written out; the response is returned and not stored. -/
def Obligations.ConfigurationLiteralsAreExchanged : Prop :=
  ∀ s : State, s.cfgd = true →
    (∃ t, exec .xent s = .next (complete (protocolFrom s 0 5) t) ∧
      Evolves s t (exchangeTrace [0x80, 0xC2, 0x00, 0x80, 0x00] (answersFrom s 0 5) s.delay.toNat) ∧
      registers t = { registers s with cs := true }) ∧
    (∃ t, exec .xset s = .next (complete (protocolFrom s 0 9) t) ∧
      Evolves s t (exchangeTrace [0x80, 0x22, 0x00, 0x80, 0xC0, 0x00, 0x00, 0x00, 0x00]
        (answersFrom s 0 9) s.delay.toNat) ∧
      registers t = { registers s with cs := true }) ∧
    (∃ t, exec .xext s = .next (complete (protocolFrom s 0 9) t) ∧
      Evolves s t (exchangeTrace [0x80, 0xC2, 0x00, 0x00, 0x5A, 0x5A, 0x5A, 0x5A, 0x5A]
        (answersFrom s 0 9) s.delay.toNat) ∧
      registers t = { registers s with cs := true })

/-- XRD is the exchange of the read-data literal; its nine response bytes, whatever they are, become
FRAME, and BTN is not written. -/
def Obligations.XrdStoresTheResponseFrame : Prop :=
  ∀ s : State, s.cfgd = true →
    ∃ t, exec .xrd s = .next (complete (protocolFrom s 0 9) t) ∧
      Evolves s t (exchangeTrace [0x80, 0x42, 0x00, 0x00, 0x00, 0x00, 0x00, 0x00, 0x00]
        (answersFrom s 0 9) s.delay.toNat) ∧
      registers t = { registers s with cs := true, fwr := true, frame := frameFrom s 0 } ∧
      t.frame.toList = protocolFrom s 0 9

/-- Before CFG every exchange is refused NotConfigured, and NEG where it is not refused for want of a
session first, which it never is by default.  (D33; that refusal of NEG rests on the model's parameter
`negNeedsSession`, log 24.) -/
def Obligations.ExchangesNeedConfiguration : Prop :=
  ∀ s : State, s.cfgd = false →
    (∀ cmd : List Byte, 1 ≤ cmd.length → cmd.length ≤ 9 →
      exec (.xchg cmd) s = .next (endWith .notConfigured s)) ∧
    exec .xent s = .next (endWith .notConfigured s) ∧
    exec .xset s = .next (endWith .notConfigured s) ∧
    exec .xext s = .next (endWith .notConfigured s) ∧
    exec .xrd s = .next (endWith .notConfigured s) ∧
    (NegAvailable s → exec .neg s = .next (endWith .notConfigured s))

/-- XCHG of no byte or of more than nine is refused BadLength, configured or not.  (D3; R208's order.) -/
def Obligations.XchgLengthIsTestedFirst : Prop :=
  ∀ (cmd : List Byte) (s : State), cmd.length = 0 ∨ 9 < cmd.length →
    exec (.xchg cmd) s = .next (endWith .badLength s)

/-- CFG makes the three configuration calls and parks the select line; of the registers it writes CS and
CFGD.  On unusable pins it is refused.  (Order of the calls: D23.) -/
def Obligations.CfgConfiguresAndParksSelect : Prop :=
  ∀ s : State,
    (s.params.pinsUsable = true →
      ∃ t, exec .cfg s = .next (complete [] t) ∧
        Evolves s t [.configure s.params.pins, .setFrame 8 s.params.spiMode,
          .setClock s.params.clockHz, .line .select true] ∧
        registers t = { registers s with cs := true, cfgd := true }) ∧
    (s.params.pinsUsable = false → exec .cfg s = .next (endWith .badConfig s))

/-- WRREG 1 writes DELAY with 1 to 10; any other register is refused BadIndex, whatever the value; any
other value of register 1 is refused BadValue.  (D11, D26.) -/
def Obligations.WrregWritesDelayInRange : Prop :=
  ∀ (r : Nibble) (v : Byte) (s : State),
    (r = 1 → 1 ≤ v.toNat → v.toNat ≤ 10 →
      exec (.wrreg r v) s = .next (complete [] { s with delay := v })) ∧
    (r ≠ 1 → exec (.wrreg r v) s = .next (endWith .badIndex s)) ∧
    (r = 1 → v.toNat = 0 ∨ 10 < v.toNat → exec (.wrreg r v) s = .next (endWith .badValue s))

/-- RDREG answers the register its number names and changes nothing: DELAY always, STATUS and the frame
bytes of a written FRAME, the halves of a written BTN; numbers 13 to 15 are refused.  (Numbers: D26.) -/
def Obligations.RdregAnswersTheNamedRegister : Prop :=
  ∀ s : State,
    exec (.rdreg 1) s = .next (complete [s.delay] s) ∧
    (s.fwr = true →
      exec (.rdreg 0) s = .next (complete [statusByte s.frame[1] s.cs s.session] s) ∧
      ∀ i : Fin 9, exec (.rdreg (BitVec.ofNat 4 (4 + i.val))) s = .next (complete [s.frame[i]] s)) ∧
    (s.bwr = true →
      exec (.rdreg 2) s = .next (complete [s.btn.extractLsb' 0 8] s) ∧
      exec (.rdreg 3) s = .next (complete [s.btn.extractLsb' 8 8] s)) ∧
    ∀ r : Nibble, 13 ≤ r.toNat → exec (.rdreg r) s = .next (endWith .badIndex s)

/-- The STATUS byte bit by bit.  (Layout: D26.) -/
def Obligations.StatusByteLayout : Prop :=
  ∀ (m : Byte) (cs : Bool) (session : Session),
    (statusByte m cs session).getLsbD 0 = validMode m ∧
    (statusByte m cs session).getLsbD 1 = aliveMode m ∧
    (statusByte m cs session).getLsbD 2 = confirmedMode m ∧
    (statusByte m cs session).getLsbD 3 = cs ∧
    ((statusByte m cs session).extractLsb' 4 2).toNat =
      (match session with
        | .uninitialized => 0
        | .probing => 1
        | .configuringAnalogMode => 2
        | .ready _ => 3) ∧
    (statusByte m cs session).getLsbD 6 =
      (match session with
        | .uninitialized => false
        | .probing => false
        | .configuringAnalogMode => false
        | .ready ok => ok) ∧
    (statusByte m cs session).getLsbD 7 = false

/-! ### The parser -/

/-- The three predicates of the mode byte, and which of them a byte can pass together (the second part is
R25's own derivation). -/
def Obligations.ModePredicatesAndTheirOverlap : Prop :=
  (∀ f : Vector Byte 9,
    (valid f = true ↔ f[1].extractLsb' 4 4 = 0x7) ∧
    (alive f = true ↔ f[1] = 0x41 ∨ f[1] = 0x73 ∨ f[1] = 0x79) ∧
    (confirmed f = true ↔ f[1] = 0x73)) ∧
  (∀ m : Byte, (confirmedMode m = true → aliveMode m = true ∧ validMode m = true) ∧
    (validMode m = true → aliveMode m = true → m = 0x73 ∨ m = 0x79) ∧
    (aliveMode m = true → validMode m = false → m = 0x41))

/-- DEC of a written FRAME latches byte 3 as BTN[7:0] and byte 4 as BTN[15:8], whatever the mode byte is,
and changes nothing else.  (Byte order: D7.) -/
def Obligations.DecLatchesTheButtonBytes : Prop :=
  ∀ s : State, s.fwr = true →
    ∃ b : Mask, exec .dec s = .next (complete [] { s with btn := b, bwr := true }) ∧
      b.extractLsb' 0 8 = s.frame[3] ∧ b.extractLsb' 8 8 = s.frame[4]

/-- Before FRAME is written, DEC leaves BTN unwritten, and so unspecified; the other registers stand.
(D25; the model's way of it is log 14.) -/
def Obligations.DecOfAnUnwrittenFrameLeavesBtnUnwritten : Prop :=
  ∀ s : State, s.fwr = false →
    ∃ t, exec .dec s = .next (complete [] t) ∧ registers t = { registers s with btn := t.btn, bwr := false } ∧
      Evolves { s with freeDraws := t.freeDraws } t []

/-- BTN answers 1 exactly where the bit of the stored mask is clear, from BTN alone, and changes nothing;
with bit 0 clear and bit 3 set, SELECT is pressed and START is not. -/
def Obligations.BtnAnswersActiveLow : Prop :=
  (∀ (k : Nibble) (s : State), s.bwr = true →
    exec (.btn k) s = .next (complete [if s.btn.getLsbD k.toNat then 0x00 else 0x01] s)) ∧
  (∀ s : State, s.bwr = true → s.btn &&& 0x0001 = 0 → s.btn &&& 0x0008 ≠ 0 →
    exec pseudoSelect s = .next (complete [0x01] s) ∧ exec pseudoStart s = .next (complete [0x00] s))

/-- AXIS 5 to 8 answers the raw byte of a written FRAME and changes nothing; any other index is refused.
(Refusal: D9.) -/
def Obligations.AxisAnswersTheRawByte : Prop :=
  ∀ s : State,
    (s.fwr = true →
      exec (.axis 5) s = .next (complete [s.frame[5]] s) ∧
      exec (.axis 6) s = .next (complete [s.frame[6]] s) ∧
      exec (.axis 7) s = .next (complete [s.frame[7]] s) ∧
      exec (.axis 8) s = .next (complete [s.frame[8]] s)) ∧
    ∀ a : Nibble, a.toNat < 5 ∨ 8 < a.toNat → exec (.axis a) s = .next (endWith .badIndex s)

/-- Before FRAME or BTN is written, a query of it answers a free value drawn for that read, never the
stored one, and no register changes.  (D25; the model's way of it is logs 4 and 13.) -/
def Obligations.UnwrittenReadsAnswerFreeValues : Prop :=
  ∀ s : State,
    (s.fwr = false →
      (∀ a : Nibble, 5 ≤ a.toNat → a.toNat ≤ 8 →
        exec (.axis a) s =
          .next (complete [Config.freeByte s.freeDraws] { s with freeDraws := s.freeDraws + 1 })) ∧
      (∀ r : Nibble, 4 ≤ r.toNat → r.toNat ≤ 12 →
        exec (.rdreg r) s =
          .next (complete [Config.freeByte s.freeDraws] { s with freeDraws := s.freeDraws + 1 })) ∧
      exec (.rdreg 0) s =
        .next (complete [statusByte (Config.freeByte s.freeDraws) s.cs s.session]
          { s with freeDraws := s.freeDraws + 1 })) ∧
    (s.bwr = false →
      (∀ k : Nibble, exec (.btn k) s =
        .next (complete [if (Config.freeMask s.freeDraws).getLsbD k.toNat then 0x00 else 0x01]
          { s with freeDraws := s.freeDraws + 1 })) ∧
      exec (.rdreg 2) s =
        .next (complete [(Config.freeMask s.freeDraws).extractLsb' 0 8]
          { s with freeDraws := s.freeDraws + 1 }) ∧
      exec (.rdreg 3) s =
        .next (complete [(Config.freeMask s.freeDraws).extractLsb' 8 8]
          { s with freeDraws := s.freeDraws + 1 }))

/-! ### The session sequencer -/

/-- NEG with CFGD = 1, whatever SESSION, is the three literals in order, 41 events; the responses are
discarded and of the registers only CS is written.  Where the model's parameter `negNeedsSession` is set, by
default it is not, a session is needed: the model's choice (log 24; R161 and R205 refuse NEG for CFGD
alone, R210 refuses it after a failed INIT). -/
def Obligations.NegRunsTheThreeLiterals : Prop :=
  ∀ s : State, s.cfgd = true → NegAvailable s →
    ∃ t, exec .neg s = .next (complete [] t) ∧ Evolves s t (negTrace s 0) ∧
      (negTrace s 0).length = 41 ∧ transferCount (negTrace s 0) = 23 ∧
      registers t = { registers s with cs := true }

/-- NEG leaves what XENT, XSET and XEXT leave, run one after another, but for their results, before CFG too,
unless the model's parameter `negNeedsSession` is set and there is no session (the model's choice, log
24). -/
def Obligations.NegIsXentXsetXext : Prop :=
  ∀ s : State, NegAvailable s →
    quietly .neg s = quietly .xext (quietly .xset (quietly .xent s))

/-- No response byte of NEG reaches anything but the trace: with other answers to its 23 transfers the
state after differs in the trace alone.  (Of a NEG that is accepted: where the model's parameter
`negNeedsSession` is set, only in a session, log 24.) -/
def Obligations.NegIgnoresTheResponses : Prop :=
  ∀ (s t u : State) (a b later : List Byte), s.cfgd = true → NegAvailable s →
    a.length = 23 → b.length = 23 →
    exec .neg { s with answers := a ++ later } = .next t →
    exec .neg { s with answers := b ++ later } = .next u →
    { t with trace := u.trace } = u

/-- A READ whose attempts fail up to the k-th and not there (k from 0 to 4) completes with OK: its trace
is the stale-session NEG if due, the rate-limit wait if due, the failed attempts each with its NEG and
wait, and one XRD; FRAME is that XRD's, BTN is decoded from it, DELAY stands, TLAST is the time at the
end, and `analog_ok` is set in Ready. -/
def Obligations.ReadSucceedsAtTheFirstValidFrame : Prop :=
  ∀ (s : State) (k : Nat), s.session ≠ .uninitialized → s.cfgd = true → k < 5 →
    (∀ j < k, validMode (frameFrom s (attemptStart s j))[1] = false) →
    validMode (frameFrom s (attemptStart s k))[1] = true →
    ∃ t, exec .read s = .next (complete [] t) ∧
      Evolves s t
        (readHeadTrace s ++ failedAttemptsTrace s k ++ xrdTrace s (attemptStart s k)) ∧
      registers t =
        { registers s with
          frame := frameFrom s (attemptStart s k)
          fwr := true
          btn := packButtons (frameFrom s (attemptStart s k))[3] (frameFrom s (attemptStart s k))[4]
          bwr := true
          cs := true
          session := sessionAfterRead true s.session
          tlast := t.now }

/-- A READ whose five frames are all invalid completes with ReadMiss: FRAME is the fifth, BTN is decoded
from it, DELAY is one higher unless it is 10 or more, and the fifth failed attempt too is followed by NEG
and the wait unless `NEG_AFTER_LAST_ATTEMPT` is false.  (D14, D16.) -/
def Obligations.ReadMissesAfterFiveInvalidFrames : Prop :=
  ∀ s : State, s.session ≠ .uninitialized → s.cfgd = true →
    (∀ j < 5, validMode (frameFrom s (attemptStart s j))[1] = false) →
    ∃ t, exec .read s = .next (endWith .readMiss t) ∧
      Evolves s t
        (readHeadTrace s ++ failedAttemptsTrace s 4 ++
          (if s.params.negAfterLastAttempt then failedAttemptTrace s 4
            else xrdTrace s (attemptStart s 4))) ∧
      registers t =
        { registers s with
          frame := frameFrom s (attemptStart s 4)
          fwr := true
          btn := packButtons (frameFrom s (attemptStart s 4))[3] (frameFrom s (attemptStart s 4))[4]
          bwr := true
          cs := true
          delay := if s.delay.toNat < 10 then s.delay + 1 else s.delay
          session := sessionAfterRead false s.session
          tlast := t.now }

/-- READ without a session is refused NoSession.  (D18.)  With a session and CFGD = 0, a state no run
reaches, the model refuses it NotConfigured (log 11). -/
def Obligations.ReadWithoutASessionIsRefused : Prop :=
  ∀ s : State,
    (s.session = .uninitialized → exec .read s = .next (endWith .noSession s)) ∧
    (s.session ≠ .uninitialized → s.cfgd = false → exec .read s = .next (endWith .notConfigured s))

/-- An accepted READ makes 1 to 23 exchanges and 9 to 183 byte transfers; without
`NEG_AFTER_LAST_ATTEMPT` at most 20 and 160.  (The spec's own derivation.) -/
def Obligations.ReadMakesABoundedNumberOfExchanges : Prop :=
  ∀ s t : State, s.session ≠ .uninitialized → s.cfgd = true → exec .read s = .next t →
    ∃ ev, t.trace = s.trace ++ ev ∧
      1 ≤ exchangeCount ev ∧ 9 ≤ transferCount ev ∧
      exchangeCount ev ≤ (if s.params.negAfterLastAttempt then 23 else 20) ∧
      transferCount ev ≤ (if s.params.negAfterLastAttempt then 183 else 160)

/-- READ leaves what its Layer 1 expansion leaves, with the two writes only READ makes (TLAST, and
`analog_ok` in Ready) and its result. -/
def Obligations.ReadIsItsLayerOneExpansion : Prop :=
  ∀ s : State, s.session ≠ .uninitialized → s.cfgd = true →
    exec .read s = .next
      (endWith (if valid (layerOneFrame s).frame then .ok else .readMiss)
        { layerOneRead s with
          tlast := (layerOneRead s).now
          session := sessionAfterRead (valid (layerOneFrame s).frame) s.session })

/-- INIT on an unusable pin assignment is refused before any state change. -/
def Obligations.InitOnUnusablePinsIsRefused : Prop :=
  ∀ s : State, s.params.pinsUsable = false → exec .init s = .next (endWith .badConfig s)

/-- An accepted INIT begins with CFG's four events and ends in one of three ways: NoResponse and no
session, where the frame is not alive; OK and Ready(true), where it is confirmed; ModeNegotiationFailed
and no session, where it is not confirmed.  The frame, the mask decoded from it and TLAST are the last
READ's.  (Session after a failure: D18.  That time may pass in a gap before each of the two probe READs is
the model's choice, log 22.) -/
def Obligations.InitEndsInOneOfThreeWays : Prop :=
  ∀ s : State, s.params.pinsUsable = true →
    ∃ (c : ResultCode) (t : State) (ev : List Event), exec .init s = .next (endWith c t) ∧
      Evolves s t
        ([.configure s.params.pins, .setFrame 8 s.params.spiMode, .setClock s.params.clockHz,
          .line .select true] ++ ev) 2 ∧
      t.fwr = true ∧ t.bwr = true ∧ t.btn = packButtons t.frame[3] t.frame[4] ∧
      t.cs = true ∧ t.cfgd = true ∧ t.tlast = t.now ∧
      ((c = .noResponse ∧ alive t.frame = false ∧ t.session = .uninitialized) ∨
        (c = .ok ∧ confirmed t.frame = true ∧ t.session = .ready true) ∨
        (c = .modeNegotiationFailed ∧ confirmed t.frame = false ∧ t.session = .uninitialized))

/-- A peer none of whose bytes is an alive mode byte during the two probe READs: INIT returns NoResponse,
and DELAY is where the probe READs left it, at most two higher. -/
def Obligations.InitOfADeadPeerIsNoResponse : Prop :=
  ∀ s : State, s.params.pinsUsable = true →
    (∀ k < 366, aliveMode (reverse8 (answerAt s k)) = false) →
    ∃ t, exec .init s = .next (endWith .noResponse t) ∧ t.session = .uninitialized ∧
      s.delay.toNat ≤ t.delay.toNat ∧ t.delay.toNat ≤ s.delay.toNat + 2

/-- A peer all of whose bytes are the mode byte 0x73 (raw 0xCE): INIT succeeds at its first negotiation
attempt, with DELAY = 1, whatever the clock does. -/
def Obligations.InitOfAConfirmingPeerSucceeds : Prop :=
  ∀ s : State, s.params.pinsUsable = true → (∀ k < 119, answerAt s k = 0xCE) →
    ∃ t ev, exec .init s = .next (endWith .ok t) ∧ t.session = .ready true ∧ t.delay = 1 ∧
      t.trace = s.trace ++ ev ∧ 6 ≤ exchangeCount ev ∧ exchangeCount ev ≤ 15

/-- A peer all of whose bytes are the mode byte 0x79 (raw 0x9E): the probe passes, no attempt is
confirmed, and after eleven attempts INIT returns ModeNegotiationFailed with DELAY at 10, or at 11 with
`INIT_INC_UNCAPPED`.  (D12, D13.) -/
def Obligations.InitOfAPeerThatNeverConfirmsFails : Prop :=
  ∀ s : State, s.params.pinsUsable = true → (∀ k < 669, answerAt s k = 0x9E) →
    ∃ t ev, exec .init s = .next (endWith .modeNegotiationFailed t) ∧ t.session = .uninitialized ∧
      t.delay.toNat = (if s.params.initIncUncapped then 11 else 10) ∧
      t.trace = s.trace ++ ev ∧ 46 ≤ exchangeCount ev ∧ exchangeCount ev ≤ 85

/-- An accepted INIT makes at most 332 exchanges and 2632 transfers, at least 2 and 18, and at least 6 and
50 unless it returns NoResponse.  (The spec's own derivation, with its lower bound read as log 16 says.) -/
def Obligations.InitMakesABoundedNumberOfExchanges : Prop :=
  ∀ s : State, s.params.pinsUsable = true →
    ∃ c t ev, exec .init s = .next (endWith c t) ∧ t.trace = s.trace ++ ev ∧
      2 ≤ exchangeCount ev ∧ 18 ≤ transferCount ev ∧
      exchangeCount ev ≤ 332 ∧ transferCount ev ≤ 2632 ∧
      (c ≠ .noResponse → 6 ≤ exchangeCount ev ∧ 50 ≤ transferCount ev)

/-- INIT is its expansion into the operations CFG, READ and NEG with its own writes of DELAY and SESSION,
but for their results.  (The gap before each of its two probe READs is the model's choice, log 22.) -/
def Obligations.InitIsItsExpansion : Prop :=
  ∀ s : State, s.params.pinsUsable = true →
    exec .init s = .next
      (endWith (expandedInit s).1 { (expandedInit s).2 with hostOut := s.hostOut })

/-! ### The host port and the encoding -/

/-- A step takes the command at the head of the host's bytes and runs it: the bytes leave the stream, the
gap before it has lasted what CLOCK says, and nothing else is different when it starts. -/
def Obligations.StepRunsTheDecodedCommand : Prop :=
  ∀ (s : State) (i : Instr) (rest : List Byte), decode s.hostIn = .command i rest →
    step s = exec i (takeCommand rest s) ∧
    takeCommand rest s =
      { s with
        hostIn := rest
        now := s.now + tickAt s 0
        ticks := (takeCommand rest s).ticks
        tickDraws := (takeCommand rest s).tickDraws } ∧
    ∀ k, tickAt (takeCommand rest s) k = tickAt s (1 + k)

/-- A command the decoder refuses has its bytes taken and returns ReservedOp; no register changes and no
event is appended.  (D2, D22.)  A command whose data bytes have not all come waits (log 7). -/
def Obligations.StepRefusesReservedAndWaitsForBytes : Prop :=
  ∀ s : State,
    (∀ rest, decode s.hostIn = .reservedOp rest →
      ∃ t, step s = .next (endWith .reservedOp t) ∧ registers t = registers s ∧ t.trace = s.trace ∧
        t.hostIn = rest ∧ t.hostOut = s.hostOut ∧ t.params = s.params) ∧
    (∀ c later, s.hostIn = c :: later → later.length < dataCount c → step s = .next s)

/-- R207: with no operation issued a step changes nothing. -/
def Obligations.NothingHappensWithoutACommand : Prop :=
  ∀ s : State, s.hostIn = [] → step s = .next s

/-- Decoding the bytes of a well-formed operation, with anything after them, gives it back with every
operand.  (D2.) -/
def Obligations.DecodeInvertsEncode : Prop :=
  ∀ (i : Instr) (rest : List Byte), WellFormed i → decode (encode i ++ rest) = .command i rest

/-- Whatever the decoder reads is well formed and has exactly the bytes taken as its encoding: a command
has one reading and an operation one encoding.  (D2.) -/
def Obligations.EncodeInvertsDecode : Prop :=
  ∀ (bytes rest : List Byte) (i : Instr), decode bytes = .command i rest →
    WellFormed i ∧ bytes = encode i ++ rest

/-- The commands refused ReservedOp are op select 0 and a non-zero arg on REV or an H0 operation, and
their data bytes are taken.  (D2, D22.) -/
def Obligations.ReservedCommandsAreExactlyThese : Prop :=
  ∀ (c : Byte) (data rest : List Byte), data.length = dataCount c →
    (decode (c :: (data ++ rest)) = .reservedOp rest ↔
      opField c = 0 ∨
      argField c ≠ 0 ∧ opField c ∈ [0x1, 0x3, 0x4, 0x5, 0x6, 0x7, 0xC, 0xD, 0xE, 0xF])

/-- Every operation read has a row of the opcode table with its mnemonic that covers its command byte, and
no other row covers it.  (Numbers: D2.) -/
def Obligations.DecodeFollowsTheOpcodeTable : Prop :=
  ∀ (c : Byte) (later rest : List Byte) (i : Instr), decode (c :: later) = .command i rest →
    ∃ row, opcodeTable.filter (OpcodeRow.covers · c) = [row] ∧ row.mnemonic = mnemonicOf i ∧
      formatOf (opField c) = some row.format

/-- Words written out from the opcode map's formats decode to the operations they stand for: one of each
format and family, with `XCHG`'s and `WRREG`'s operands.  (Numbers: D2.) -/
def Obligations.SampleCommandsDecode : Prop :=
  decode [0b00010000, 0b01000011] = .command (.rev 0x43) [] ∧
  decode [0b00100010, 0b00000001, 0b01000010, 0b10010111] = .command (.xchg [0x01, 0x42]) [0x97] ∧
  decode [0b01100000] = .command .xrd [] ∧
  decode [0b10000011] = .command (.btn 3) [] ∧
  decode [0b10110001, 0b00000100] = .command (.wrreg 1 4) [] ∧
  decode [0b11100000, 0b11110000] = .command .read [0xF0] ∧
  decode [0b00000101] = .reservedOp [] ∧
  decode [0b00010001, 0b00000000] = .reservedOp []

/-! ### The whole machine -/

/-- No step traps: every step of every state answers a next state.  That a refused request answers one
is the model's choice where D22 also allows no step at all (log 8); that an incomplete command answers one
is the model's choice too (log 7). -/
def Obligations.EveryStepAnswersANextState : Prop :=
  ∀ s : State, ∃ t, step s = .next t

/-- The state after reset, for any parameters: the values of R36's table, no event, nothing returned, and
FRAME and BTN unwritten.  (D19.) -/
def Obligations.ResetHasTheSpecifiedValues : Prop :=
  State.reset = State.resetWith Config.defaults ∧
  ∀ p : Params, (State.resetWith p).delay = 1 ∧ (State.resetWith p).cs = true ∧
    (State.resetWith p).cfgd = false ∧ (State.resetWith p).session = .uninitialized ∧
    (State.resetWith p).tlast = 0 ∧ (State.resetWith p).fwr = false ∧ (State.resetWith p).bwr = false ∧
    (State.resetWith p).trace = [] ∧ (State.resetWith p).hostOut = [] ∧ (State.resetWith p).params = p

/-- The invariant between operations holds after reset, for any parameters.  (D19.) -/
def Obligations.ResetMeetsTheInvariant : Prop :=
  ∀ p : Params, BetweenOperations (State.resetWith p)

/-- Every step keeps the invariant between operations: select released; DELAY from 1 to 10, or to 16 with
`INIT_INC_UNCAPPED`; no INIT in progress; TLAST not after NOW; a session only with FRAME and BTN written
and the transport configured.  (Partly the spec's own derivation; D12, D19.) -/
def Obligations.EveryStepKeepsTheInvariant : Prop :=
  ∀ s t : State, BetweenOperations s → step s = .next t → BetweenOperations t

/-- Every operation is its events: the trace grows by a sequence of events, whose received bytes are
PEER's next answers, and time passes by those events and, in an INIT, by at most the two gaps before its
probe READs.  That time passes there and nowhere else inside an operation is the model's choice: R212 and
R165 do not say where it passes (logs 6 and 22). -/
def Obligations.EveryOperationIsItsEvents : Prop :=
  ∀ (i : Instr) (s t : State), exec i s = .next t →
    ∃ ev gaps, (gaps = 0 ∨ i = .init ∧ gaps = 2) ∧
      Evolves { s with freeDraws := t.freeDraws, hostOut := t.hostOut } t ev gaps

/-- Over any step the trace and the results returned only grow, the bytes taken from HOST are a head of
those it had sent, the clock does not run back, and the parameters stand. -/
def Obligations.StepsOnlyExtendTheRecord : Prop :=
  ∀ s t : State, step s = .next t →
    s.trace <+: t.trace ∧ s.hostOut <+: t.hostOut ∧ t.hostIn <:+ s.hostIn ∧ s.now ≤ t.now ∧
      t.params = s.params

/-- The events of every step keep the bus discipline: DO and CLK driven high before select and the settle
wait before the first byte (R242; exactly 5 by D29), one to nine bytes under select (D3), release, then
the trailing wait (R110, R243); outside exchanges only waits, the configuration calls and the parking of
select (R116). -/
def Obligations.EveryStepKeepsTheBusDiscipline : Prop :=
  ∀ s t : State, step s = .next t →
    ∃ ev, t.trace = s.trace ++ ev ∧ busRun .idle ev = some .idle

/-- Each register of R20 changes only by the operations that write it. -/
def Obligations.RegistersChangeOnlyByTheirWriters : Prop :=
  ∀ (i : Instr) (s t : State), exec i s = .next t →
    ((t.frame ≠ s.frame ∨ t.fwr ≠ s.fwr) → i = .xrd ∨ i = .read ∨ i = .init) ∧
    ((t.btn ≠ s.btn ∨ t.bwr ≠ s.bwr) → i = .dec ∨ i = .read ∨ i = .init) ∧
    (t.delay ≠ s.delay → (∃ r v, i = .wrreg r v) ∨ i = .read ∨ i = .init) ∧
    (t.cs ≠ s.cs → (∃ cmd, i = .xchg cmd) ∨ i = .xent ∨ i = .xset ∨ i = .xext ∨ i = .xrd ∨ i = .cfg ∨
      i = .neg ∨ i = .read ∨ i = .init) ∧
    (t.cfgd ≠ s.cfgd → i = .cfg ∨ i = .init) ∧
    (t.session ≠ s.session → i = .read ∨ i = .init) ∧
    (t.tlast ≠ s.tlast → i = .read ∨ i = .init)

/-- Only INIT and WRREG can lower DELAY; no other operation raises it by more than one. -/
def Obligations.DelayFallsOnlyByInitOrWrreg : Prop :=
  ∀ (i : Instr) (s t : State), exec i s = .next t → i ≠ .init → (∀ r v, i ≠ .wrreg r v) →
    s.delay.toNat ≤ t.delay.toNat ∧ t.delay.toNat ≤ s.delay.toNat + 1

/-- SESSION changes only as the transition table allows between operations: READ moves between the two
Ready states, and INIT ends in Uninitialized or Ready(true).  (D18.) -/
def Obligations.SessionMovesOnlyByTheTable : Prop :=
  ∀ (i : Instr) (s t : State), exec i s = .next t → t.session ≠ s.session →
    (i = .read ∧ inSession s.session = true ∧ inSession t.session = true) ∨
    (i = .init ∧ (t.session = .uninitialized ∨ t.session = .ready true))

/-- On the reference clock an exchange of n bytes takes 5 + n byte times + DELAY.  (The spec's own clock,
D20; the byte time of a CLOCK_HZ that does not divide 8000000 is the model's choice, log 23.) -/
def Obligations.ExchangeTimeOnTheReferenceClock : Prop :=
  ∀ (cmd : List Byte) (s t : State), 1 ≤ cmd.length → cmd.length ≤ 9 → s.cfgd = true →
    (∀ k < cmd.length + 6,
      tickAt s k = if 4 ≤ k ∧ k < 4 + cmd.length then byteUs s.params else 0) →
    exec (.xchg cmd) s = .next t →
    t.now = s.now + 5 + byteUs s.params * cmd.length + s.delay.toNat

/-! ### Refinements -/

/-- The step table of the exchange: from the accepted operation, as many steps as the command has bytes
and five more reach Idle with the response and the state of the exchange as one operation (for XRD with
FRAME stored), and every step appends exactly one event. -/
def Obligations.SmallStepsMakeOneExchange : Prop :=
  ∀ (cmd : List Byte) (storing : Bool) (s : State),
    (smallSteps (cmd.length + 5) (acceptExchange cmd storing s)).phase = .idle ∧
    (smallSteps (cmd.length + 5) (acceptExchange cmd storing s)).response = (exchange cmd s).1 ∧
    (smallSteps (cmd.length + 5) (acceptExchange cmd storing s)).state =
      (if storing then storeFrame (exchange cmd s).1 (exchange cmd s).2 else (exchange cmd s).2) ∧
    ∀ n ≤ cmd.length + 5,
      (smallSteps n (acceptExchange cmd storing s)).state.trace.length = s.trace.length + 1 + n

/-- Below the byte, in SPI mode 3 with the most significant bit first: handed the codec image of a
protocol byte, the transport puts that byte's bits on DO least significant first, and puts together the
byte whose bits DI gave most significant first.  (D5.) -/
def Obligations.BitTransferSendsProtocolBitZeroFirst : Prop :=
  ∀ (p : Params) (b i : Byte), p.spiMode = 3 → p.nativeMsbFirst = true →
    ∃ ev, bitTransfer p (reverse8 b) ((List.range 8).map fun j => i.getLsbD (7 - j)) = some (ev, i) ∧
      outLevels ev = (List.range 8).map b.getLsbD ∧ ev.length = 32

/-! ### After a failed INIT, and the longest INIT -/

/-- After an INIT that has failed there is no session: READ is refused NoSession, INIT is accepted again, and
Layer 1 is configured (D18).  NEG runs its three exchanges there as everywhere with CFGD = 1, as R161 and
R205 have it; where the model's parameter `negNeedsSession` is set, by default it is not, NEG is refused
NoSession there, as R210 has it, and in every state without a session.  The parameter is the model's choice
between rules that contradict each other (log 24). -/
def Obligations.LayerTwoAfterAFailedInit : Prop :=
  (∀ s : State, s.params.negNeedsSession = true → s.session = .uninitialized →
    exec .neg s = .next (endWith .noSession s)) ∧
  ∀ s t : State, s.params.pinsUsable = true → exec .init s = .next t → t.session = .uninitialized →
    t.cfgd = true ∧ exec .read t = .next (endWith .noSession t) ∧
    (t.params.negNeedsSession = false →
      ∃ u, exec .neg t = .next (complete [] u) ∧ Evolves t u (negTrace t 0) ∧
        registers u = { registers t with cs := true }) ∧
    (t.params.negNeedsSession = true → exec .neg t = .next (endWith .noSession t)) ∧
    ∃ c u, exec .init t = .next (endWith c u) ∧ isRefusal c = false

/-- The upper bounds are reached: a peer all of whose bytes are the mode byte 0x41 (raw 0x82) makes every
attempt of every READ fail, and a clock that lets more than STALE_US pass at every event and gap makes every
READ of the INIT stale, so INIT makes 332 exchanges and 2632 transfers, returns ModeNegotiationFailed and
leaves DELAY at its ceiling.  (The spec's own derivation.  That the clock may let time pass before a probe
READ, and once for each event, is the model's choice, logs 22 and 6.) -/
def Obligations.InitOfAStaleInvalidPeerReachesTheBounds : Prop :=
  ∀ s : State, s.params.pinsUsable = true → s.params.negAfterLastAttempt = true → s.tlast ≤ s.now →
    (∀ k < 2632, answerAt s k = 0x82) → (∀ k < 4708, s.params.staleUs < tickAt s k) →
    ∃ t ev, exec .init s = .next (endWith .modeNegotiationFailed t) ∧ t.trace = s.trace ++ ev ∧
      exchangeCount ev = 332 ∧ transferCount ev = 2632 ∧
      t.session = .uninitialized ∧ t.delay.toNat = delayCeiling s.params
end

