-- ==== Sys2Proof/Laws/Codec.lean ====
section
/-!
SUPPORT. The codec's bits, and the codec images of the four literals.
-/

namespace Sys2Proof.Machine

/-- Bit `i` of the result is bit `7 - i` of the argument. -/
theorem reverse8_bit (v : Byte) (i : Nat) (h : i < 8) :
    (reverse8 v).getLsbD i = v.getLsbD (7 - i) := by
  revert v
  interval_cases i <;> decide +kernel

theorem codecImage_enterConfiguration :
    codecImage enterConfiguration = [0x80, 0xC2, 0x00, 0x80, 0x00] := by decide

theorem codecImage_setAnalogMode :
    codecImage setAnalogMode = [0x80, 0x22, 0x00, 0x80, 0xC0, 0x00, 0x00, 0x00, 0x00] := by decide

theorem codecImage_exitConfiguration :
    codecImage exitConfiguration = [0x80, 0xC2, 0x00, 0x00, 0x5A, 0x5A, 0x5A, 0x5A, 0x5A] := by decide

theorem codecImage_readData :
    codecImage readData = [0x80, 0x42, 0x00, 0x00, 0x00, 0x00, 0x00, 0x00, 0x00] := by decide

@[simp] theorem length_enterConfiguration : enterConfiguration.length = 5 := rfl
@[simp] theorem length_setAnalogMode : setAnalogMode.length = 9 := rfl
@[simp] theorem length_exitConfiguration : exitConfiguration.length = 9 := rfl
@[simp] theorem length_readData : readData.length = 9 := rfl
@[simp] theorem length_codecImage (cmd : List Byte) : (codecImage cmd).length = cmd.length := by
  simp [codecImage]

end Sys2Proof.Machine
end

