-- ==== Sys2Proof/Laws/State.lean ====
section
/-!
SUPPORT. What each named update does to each field: one lemma per field per update, so that no later
proof unfolds a record update.  The updates that pass time (`elapse` and what calls it) match on the
clock's script; every other update is true by `rfl`.
-/

namespace Sys2Proof.Machine

@[simp] theorem complete_frame (data : List Byte) (s : State) : (complete data s).frame = s.frame := rfl
@[simp] theorem complete_fwr (data : List Byte) (s : State) : (complete data s).fwr = s.fwr := rfl
@[simp] theorem complete_btn (data : List Byte) (s : State) : (complete data s).btn = s.btn := rfl
@[simp] theorem complete_bwr (data : List Byte) (s : State) : (complete data s).bwr = s.bwr := rfl
@[simp] theorem complete_delay (data : List Byte) (s : State) : (complete data s).delay = s.delay := rfl
@[simp] theorem complete_cs (data : List Byte) (s : State) : (complete data s).cs = s.cs := rfl
@[simp] theorem complete_cfgd (data : List Byte) (s : State) : (complete data s).cfgd = s.cfgd := rfl
@[simp] theorem complete_session (data : List Byte) (s : State) : (complete data s).session = s.session := rfl
@[simp] theorem complete_tlast (data : List Byte) (s : State) : (complete data s).tlast = s.tlast := rfl
@[simp] theorem complete_params (data : List Byte) (s : State) : (complete data s).params = s.params := rfl
@[simp] theorem complete_trace (data : List Byte) (s : State) : (complete data s).trace = s.trace := rfl
@[simp] theorem complete_now (data : List Byte) (s : State) : (complete data s).now = s.now := rfl
@[simp] theorem complete_hostIn (data : List Byte) (s : State) : (complete data s).hostIn = s.hostIn := rfl
@[simp] theorem complete_hostOut (data : List Byte) (s : State) : (complete data s).hostOut = s.hostOut ++ codeByte .ok :: data := rfl
@[simp] theorem complete_answers (data : List Byte) (s : State) : (complete data s).answers = s.answers := rfl
@[simp] theorem complete_answerDraws (data : List Byte) (s : State) : (complete data s).answerDraws = s.answerDraws := rfl
@[simp] theorem complete_ticks (data : List Byte) (s : State) : (complete data s).ticks = s.ticks := rfl
@[simp] theorem complete_tickDraws (data : List Byte) (s : State) : (complete data s).tickDraws = s.tickDraws := rfl
@[simp] theorem complete_freeDraws (data : List Byte) (s : State) : (complete data s).freeDraws = s.freeDraws := rfl

@[simp] theorem endWith_frame (c : ResultCode) (s : State) : (endWith c s).frame = s.frame := rfl
@[simp] theorem endWith_fwr (c : ResultCode) (s : State) : (endWith c s).fwr = s.fwr := rfl
@[simp] theorem endWith_btn (c : ResultCode) (s : State) : (endWith c s).btn = s.btn := rfl
@[simp] theorem endWith_bwr (c : ResultCode) (s : State) : (endWith c s).bwr = s.bwr := rfl
@[simp] theorem endWith_delay (c : ResultCode) (s : State) : (endWith c s).delay = s.delay := rfl
@[simp] theorem endWith_cs (c : ResultCode) (s : State) : (endWith c s).cs = s.cs := rfl
@[simp] theorem endWith_cfgd (c : ResultCode) (s : State) : (endWith c s).cfgd = s.cfgd := rfl
@[simp] theorem endWith_session (c : ResultCode) (s : State) : (endWith c s).session = s.session := rfl
@[simp] theorem endWith_tlast (c : ResultCode) (s : State) : (endWith c s).tlast = s.tlast := rfl
@[simp] theorem endWith_params (c : ResultCode) (s : State) : (endWith c s).params = s.params := rfl
@[simp] theorem endWith_trace (c : ResultCode) (s : State) : (endWith c s).trace = s.trace := rfl
@[simp] theorem endWith_now (c : ResultCode) (s : State) : (endWith c s).now = s.now := rfl
@[simp] theorem endWith_hostIn (c : ResultCode) (s : State) : (endWith c s).hostIn = s.hostIn := rfl
@[simp] theorem endWith_hostOut (c : ResultCode) (s : State) : (endWith c s).hostOut = s.hostOut ++ [codeByte c] := rfl
@[simp] theorem endWith_answers (c : ResultCode) (s : State) : (endWith c s).answers = s.answers := rfl
@[simp] theorem endWith_answerDraws (c : ResultCode) (s : State) : (endWith c s).answerDraws = s.answerDraws := rfl
@[simp] theorem endWith_ticks (c : ResultCode) (s : State) : (endWith c s).ticks = s.ticks := rfl
@[simp] theorem endWith_tickDraws (c : ResultCode) (s : State) : (endWith c s).tickDraws = s.tickDraws := rfl
@[simp] theorem endWith_freeDraws (c : ResultCode) (s : State) : (endWith c s).freeDraws = s.freeDraws := rfl

@[simp] theorem storeFrame_frame (resp : List Byte) (s : State) : (storeFrame resp s).frame = Vector.ofFn fun i => resp.getD i 0 := rfl
@[simp] theorem storeFrame_fwr (resp : List Byte) (s : State) : (storeFrame resp s).fwr = true := rfl
@[simp] theorem storeFrame_btn (resp : List Byte) (s : State) : (storeFrame resp s).btn = s.btn := rfl
@[simp] theorem storeFrame_bwr (resp : List Byte) (s : State) : (storeFrame resp s).bwr = s.bwr := rfl
@[simp] theorem storeFrame_delay (resp : List Byte) (s : State) : (storeFrame resp s).delay = s.delay := rfl
@[simp] theorem storeFrame_cs (resp : List Byte) (s : State) : (storeFrame resp s).cs = s.cs := rfl
@[simp] theorem storeFrame_cfgd (resp : List Byte) (s : State) : (storeFrame resp s).cfgd = s.cfgd := rfl
@[simp] theorem storeFrame_session (resp : List Byte) (s : State) : (storeFrame resp s).session = s.session := rfl
@[simp] theorem storeFrame_tlast (resp : List Byte) (s : State) : (storeFrame resp s).tlast = s.tlast := rfl
@[simp] theorem storeFrame_params (resp : List Byte) (s : State) : (storeFrame resp s).params = s.params := rfl
@[simp] theorem storeFrame_trace (resp : List Byte) (s : State) : (storeFrame resp s).trace = s.trace := rfl
@[simp] theorem storeFrame_now (resp : List Byte) (s : State) : (storeFrame resp s).now = s.now := rfl
@[simp] theorem storeFrame_hostIn (resp : List Byte) (s : State) : (storeFrame resp s).hostIn = s.hostIn := rfl
@[simp] theorem storeFrame_hostOut (resp : List Byte) (s : State) : (storeFrame resp s).hostOut = s.hostOut := rfl
@[simp] theorem storeFrame_answers (resp : List Byte) (s : State) : (storeFrame resp s).answers = s.answers := rfl
@[simp] theorem storeFrame_answerDraws (resp : List Byte) (s : State) : (storeFrame resp s).answerDraws = s.answerDraws := rfl
@[simp] theorem storeFrame_ticks (resp : List Byte) (s : State) : (storeFrame resp s).ticks = s.ticks := rfl
@[simp] theorem storeFrame_tickDraws (resp : List Byte) (s : State) : (storeFrame resp s).tickDraws = s.tickDraws := rfl
@[simp] theorem storeFrame_freeDraws (resp : List Byte) (s : State) : (storeFrame resp s).freeDraws = s.freeDraws := rfl

@[simp] theorem setDelay_frame (v : Byte) (s : State) : (setDelay v s).frame = s.frame := rfl
@[simp] theorem setDelay_fwr (v : Byte) (s : State) : (setDelay v s).fwr = s.fwr := rfl
@[simp] theorem setDelay_btn (v : Byte) (s : State) : (setDelay v s).btn = s.btn := rfl
@[simp] theorem setDelay_bwr (v : Byte) (s : State) : (setDelay v s).bwr = s.bwr := rfl
@[simp] theorem setDelay_delay (v : Byte) (s : State) : (setDelay v s).delay = v := rfl
@[simp] theorem setDelay_cs (v : Byte) (s : State) : (setDelay v s).cs = s.cs := rfl
@[simp] theorem setDelay_cfgd (v : Byte) (s : State) : (setDelay v s).cfgd = s.cfgd := rfl
@[simp] theorem setDelay_session (v : Byte) (s : State) : (setDelay v s).session = s.session := rfl
@[simp] theorem setDelay_tlast (v : Byte) (s : State) : (setDelay v s).tlast = s.tlast := rfl
@[simp] theorem setDelay_params (v : Byte) (s : State) : (setDelay v s).params = s.params := rfl
@[simp] theorem setDelay_trace (v : Byte) (s : State) : (setDelay v s).trace = s.trace := rfl
@[simp] theorem setDelay_now (v : Byte) (s : State) : (setDelay v s).now = s.now := rfl
@[simp] theorem setDelay_hostIn (v : Byte) (s : State) : (setDelay v s).hostIn = s.hostIn := rfl
@[simp] theorem setDelay_hostOut (v : Byte) (s : State) : (setDelay v s).hostOut = s.hostOut := rfl
@[simp] theorem setDelay_answers (v : Byte) (s : State) : (setDelay v s).answers = s.answers := rfl
@[simp] theorem setDelay_answerDraws (v : Byte) (s : State) : (setDelay v s).answerDraws = s.answerDraws := rfl
@[simp] theorem setDelay_ticks (v : Byte) (s : State) : (setDelay v s).ticks = s.ticks := rfl
@[simp] theorem setDelay_tickDraws (v : Byte) (s : State) : (setDelay v s).tickDraws = s.tickDraws := rfl
@[simp] theorem setDelay_freeDraws (v : Byte) (s : State) : (setDelay v s).freeDraws = s.freeDraws := rfl

@[simp] theorem setSession_frame (v : Session) (s : State) : (setSession v s).frame = s.frame := rfl
@[simp] theorem setSession_fwr (v : Session) (s : State) : (setSession v s).fwr = s.fwr := rfl
@[simp] theorem setSession_btn (v : Session) (s : State) : (setSession v s).btn = s.btn := rfl
@[simp] theorem setSession_bwr (v : Session) (s : State) : (setSession v s).bwr = s.bwr := rfl
@[simp] theorem setSession_delay (v : Session) (s : State) : (setSession v s).delay = s.delay := rfl
@[simp] theorem setSession_cs (v : Session) (s : State) : (setSession v s).cs = s.cs := rfl
@[simp] theorem setSession_cfgd (v : Session) (s : State) : (setSession v s).cfgd = s.cfgd := rfl
@[simp] theorem setSession_session (v : Session) (s : State) : (setSession v s).session = v := rfl
@[simp] theorem setSession_tlast (v : Session) (s : State) : (setSession v s).tlast = s.tlast := rfl
@[simp] theorem setSession_params (v : Session) (s : State) : (setSession v s).params = s.params := rfl
@[simp] theorem setSession_trace (v : Session) (s : State) : (setSession v s).trace = s.trace := rfl
@[simp] theorem setSession_now (v : Session) (s : State) : (setSession v s).now = s.now := rfl
@[simp] theorem setSession_hostIn (v : Session) (s : State) : (setSession v s).hostIn = s.hostIn := rfl
@[simp] theorem setSession_hostOut (v : Session) (s : State) : (setSession v s).hostOut = s.hostOut := rfl
@[simp] theorem setSession_answers (v : Session) (s : State) : (setSession v s).answers = s.answers := rfl
@[simp] theorem setSession_answerDraws (v : Session) (s : State) : (setSession v s).answerDraws = s.answerDraws := rfl
@[simp] theorem setSession_ticks (v : Session) (s : State) : (setSession v s).ticks = s.ticks := rfl
@[simp] theorem setSession_tickDraws (v : Session) (s : State) : (setSession v s).tickDraws = s.tickDraws := rfl
@[simp] theorem setSession_freeDraws (v : Session) (s : State) : (setSession v s).freeDraws = s.freeDraws := rfl

@[simp] theorem stampRead_frame (s : State) : (stampRead s).frame = s.frame := rfl
@[simp] theorem stampRead_fwr (s : State) : (stampRead s).fwr = s.fwr := rfl
@[simp] theorem stampRead_btn (s : State) : (stampRead s).btn = s.btn := rfl
@[simp] theorem stampRead_bwr (s : State) : (stampRead s).bwr = s.bwr := rfl
@[simp] theorem stampRead_delay (s : State) : (stampRead s).delay = s.delay := rfl
@[simp] theorem stampRead_cs (s : State) : (stampRead s).cs = s.cs := rfl
@[simp] theorem stampRead_cfgd (s : State) : (stampRead s).cfgd = s.cfgd := rfl
@[simp] theorem stampRead_session (s : State) : (stampRead s).session = s.session := rfl
@[simp] theorem stampRead_tlast (s : State) : (stampRead s).tlast = s.now := rfl
@[simp] theorem stampRead_params (s : State) : (stampRead s).params = s.params := rfl
@[simp] theorem stampRead_trace (s : State) : (stampRead s).trace = s.trace := rfl
@[simp] theorem stampRead_now (s : State) : (stampRead s).now = s.now := rfl
@[simp] theorem stampRead_hostIn (s : State) : (stampRead s).hostIn = s.hostIn := rfl
@[simp] theorem stampRead_hostOut (s : State) : (stampRead s).hostOut = s.hostOut := rfl
@[simp] theorem stampRead_answers (s : State) : (stampRead s).answers = s.answers := rfl
@[simp] theorem stampRead_answerDraws (s : State) : (stampRead s).answerDraws = s.answerDraws := rfl
@[simp] theorem stampRead_ticks (s : State) : (stampRead s).ticks = s.ticks := rfl
@[simp] theorem stampRead_tickDraws (s : State) : (stampRead s).tickDraws = s.tickDraws := rfl
@[simp] theorem stampRead_freeDraws (s : State) : (stampRead s).freeDraws = s.freeDraws := rfl

@[simp] theorem sendFirst_frame (bytes : List Byte) (s : State) : (sendFirst bytes s).frame = s.frame := rfl
@[simp] theorem sendFirst_fwr (bytes : List Byte) (s : State) : (sendFirst bytes s).fwr = s.fwr := rfl
@[simp] theorem sendFirst_btn (bytes : List Byte) (s : State) : (sendFirst bytes s).btn = s.btn := rfl
@[simp] theorem sendFirst_bwr (bytes : List Byte) (s : State) : (sendFirst bytes s).bwr = s.bwr := rfl
@[simp] theorem sendFirst_delay (bytes : List Byte) (s : State) : (sendFirst bytes s).delay = s.delay := rfl
@[simp] theorem sendFirst_cs (bytes : List Byte) (s : State) : (sendFirst bytes s).cs = s.cs := rfl
@[simp] theorem sendFirst_cfgd (bytes : List Byte) (s : State) : (sendFirst bytes s).cfgd = s.cfgd := rfl
@[simp] theorem sendFirst_session (bytes : List Byte) (s : State) : (sendFirst bytes s).session = s.session := rfl
@[simp] theorem sendFirst_tlast (bytes : List Byte) (s : State) : (sendFirst bytes s).tlast = s.tlast := rfl
@[simp] theorem sendFirst_params (bytes : List Byte) (s : State) : (sendFirst bytes s).params = s.params := rfl
@[simp] theorem sendFirst_trace (bytes : List Byte) (s : State) : (sendFirst bytes s).trace = s.trace := rfl
@[simp] theorem sendFirst_now (bytes : List Byte) (s : State) : (sendFirst bytes s).now = s.now := rfl
@[simp] theorem sendFirst_hostIn (bytes : List Byte) (s : State) : (sendFirst bytes s).hostIn = bytes ++ s.hostIn := rfl
@[simp] theorem sendFirst_hostOut (bytes : List Byte) (s : State) : (sendFirst bytes s).hostOut = s.hostOut := rfl
@[simp] theorem sendFirst_answers (bytes : List Byte) (s : State) : (sendFirst bytes s).answers = s.answers := rfl
@[simp] theorem sendFirst_answerDraws (bytes : List Byte) (s : State) : (sendFirst bytes s).answerDraws = s.answerDraws := rfl
@[simp] theorem sendFirst_ticks (bytes : List Byte) (s : State) : (sendFirst bytes s).ticks = s.ticks := rfl
@[simp] theorem sendFirst_tickDraws (bytes : List Byte) (s : State) : (sendFirst bytes s).tickDraws = s.tickDraws := rfl
@[simp] theorem sendFirst_freeDraws (bytes : List Byte) (s : State) : (sendFirst bytes s).freeDraws = s.freeDraws := rfl

@[simp] theorem elapse_frame (least : Nat) (s : State) : (elapse least s).frame = s.frame := by unfold elapse; split <;> rfl
@[simp] theorem elapse_fwr (least : Nat) (s : State) : (elapse least s).fwr = s.fwr := by unfold elapse; split <;> rfl
@[simp] theorem elapse_btn (least : Nat) (s : State) : (elapse least s).btn = s.btn := by unfold elapse; split <;> rfl
@[simp] theorem elapse_bwr (least : Nat) (s : State) : (elapse least s).bwr = s.bwr := by unfold elapse; split <;> rfl
@[simp] theorem elapse_delay (least : Nat) (s : State) : (elapse least s).delay = s.delay := by unfold elapse; split <;> rfl
@[simp] theorem elapse_cs (least : Nat) (s : State) : (elapse least s).cs = s.cs := by unfold elapse; split <;> rfl
@[simp] theorem elapse_cfgd (least : Nat) (s : State) : (elapse least s).cfgd = s.cfgd := by unfold elapse; split <;> rfl
@[simp] theorem elapse_session (least : Nat) (s : State) : (elapse least s).session = s.session := by unfold elapse; split <;> rfl
@[simp] theorem elapse_tlast (least : Nat) (s : State) : (elapse least s).tlast = s.tlast := by unfold elapse; split <;> rfl
@[simp] theorem elapse_params (least : Nat) (s : State) : (elapse least s).params = s.params := by unfold elapse; split <;> rfl
@[simp] theorem elapse_trace (least : Nat) (s : State) : (elapse least s).trace = s.trace := by unfold elapse; split <;> rfl
@[simp] theorem elapse_hostIn (least : Nat) (s : State) : (elapse least s).hostIn = s.hostIn := by unfold elapse; split <;> rfl
@[simp] theorem elapse_hostOut (least : Nat) (s : State) : (elapse least s).hostOut = s.hostOut := by unfold elapse; split <;> rfl
@[simp] theorem elapse_answers (least : Nat) (s : State) : (elapse least s).answers = s.answers := by unfold elapse; split <;> rfl
@[simp] theorem elapse_answerDraws (least : Nat) (s : State) : (elapse least s).answerDraws = s.answerDraws := by unfold elapse; split <;> rfl
@[simp] theorem elapse_freeDraws (least : Nat) (s : State) : (elapse least s).freeDraws = s.freeDraws := by unfold elapse; split <;> rfl

@[simp] theorem emit_frame (e : Event) (s : State) : (emit e s).frame = s.frame := by simp [emit]
@[simp] theorem emit_fwr (e : Event) (s : State) : (emit e s).fwr = s.fwr := by simp [emit]
@[simp] theorem emit_btn (e : Event) (s : State) : (emit e s).btn = s.btn := by simp [emit]
@[simp] theorem emit_bwr (e : Event) (s : State) : (emit e s).bwr = s.bwr := by simp [emit]
@[simp] theorem emit_delay (e : Event) (s : State) : (emit e s).delay = s.delay := by simp [emit]
@[simp] theorem emit_cs (e : Event) (s : State) : (emit e s).cs = s.cs := by simp [emit]
@[simp] theorem emit_cfgd (e : Event) (s : State) : (emit e s).cfgd = s.cfgd := by simp [emit]
@[simp] theorem emit_session (e : Event) (s : State) : (emit e s).session = s.session := by simp [emit]
@[simp] theorem emit_tlast (e : Event) (s : State) : (emit e s).tlast = s.tlast := by simp [emit]
@[simp] theorem emit_params (e : Event) (s : State) : (emit e s).params = s.params := by simp [emit]
@[simp] theorem emit_trace (e : Event) (s : State) : (emit e s).trace = s.trace ++ [e] := by simp [emit]
@[simp] theorem emit_hostIn (e : Event) (s : State) : (emit e s).hostIn = s.hostIn := by simp [emit]
@[simp] theorem emit_hostOut (e : Event) (s : State) : (emit e s).hostOut = s.hostOut := by simp [emit]
@[simp] theorem emit_answers (e : Event) (s : State) : (emit e s).answers = s.answers := by simp [emit]
@[simp] theorem emit_answerDraws (e : Event) (s : State) : (emit e s).answerDraws = s.answerDraws := by simp [emit]
@[simp] theorem emit_freeDraws (e : Event) (s : State) : (emit e s).freeDraws = s.freeDraws := by simp [emit]

@[simp] theorem delayFor_frame (n : Nat) (s : State) : (delayFor n s).frame = s.frame := by simp [delayFor]
@[simp] theorem delayFor_fwr (n : Nat) (s : State) : (delayFor n s).fwr = s.fwr := by simp [delayFor]
@[simp] theorem delayFor_btn (n : Nat) (s : State) : (delayFor n s).btn = s.btn := by simp [delayFor]
@[simp] theorem delayFor_bwr (n : Nat) (s : State) : (delayFor n s).bwr = s.bwr := by simp [delayFor]
@[simp] theorem delayFor_delay (n : Nat) (s : State) : (delayFor n s).delay = s.delay := by simp [delayFor]
@[simp] theorem delayFor_cs (n : Nat) (s : State) : (delayFor n s).cs = s.cs := by simp [delayFor]
@[simp] theorem delayFor_cfgd (n : Nat) (s : State) : (delayFor n s).cfgd = s.cfgd := by simp [delayFor]
@[simp] theorem delayFor_session (n : Nat) (s : State) : (delayFor n s).session = s.session := by simp [delayFor]
@[simp] theorem delayFor_tlast (n : Nat) (s : State) : (delayFor n s).tlast = s.tlast := by simp [delayFor]
@[simp] theorem delayFor_params (n : Nat) (s : State) : (delayFor n s).params = s.params := by simp [delayFor]
@[simp] theorem delayFor_trace (n : Nat) (s : State) : (delayFor n s).trace = s.trace ++ [.delay n] := by simp [delayFor]
@[simp] theorem delayFor_hostIn (n : Nat) (s : State) : (delayFor n s).hostIn = s.hostIn := by simp [delayFor]
@[simp] theorem delayFor_hostOut (n : Nat) (s : State) : (delayFor n s).hostOut = s.hostOut := by simp [delayFor]
@[simp] theorem delayFor_answers (n : Nat) (s : State) : (delayFor n s).answers = s.answers := by simp [delayFor]
@[simp] theorem delayFor_answerDraws (n : Nat) (s : State) : (delayFor n s).answerDraws = s.answerDraws := by simp [delayFor]
@[simp] theorem delayFor_freeDraws (n : Nat) (s : State) : (delayFor n s).freeDraws = s.freeDraws := by simp [delayFor]

@[simp] theorem driveSelect_frame (level : Bool) (s : State) : (driveSelect level s).frame = s.frame := by simp [driveSelect]
@[simp] theorem driveSelect_fwr (level : Bool) (s : State) : (driveSelect level s).fwr = s.fwr := by simp [driveSelect]
@[simp] theorem driveSelect_btn (level : Bool) (s : State) : (driveSelect level s).btn = s.btn := by simp [driveSelect]
@[simp] theorem driveSelect_bwr (level : Bool) (s : State) : (driveSelect level s).bwr = s.bwr := by simp [driveSelect]
@[simp] theorem driveSelect_delay (level : Bool) (s : State) : (driveSelect level s).delay = s.delay := by simp [driveSelect]
@[simp] theorem driveSelect_cs (level : Bool) (s : State) : (driveSelect level s).cs = level := by simp [driveSelect]
@[simp] theorem driveSelect_cfgd (level : Bool) (s : State) : (driveSelect level s).cfgd = s.cfgd := by simp [driveSelect]
@[simp] theorem driveSelect_session (level : Bool) (s : State) : (driveSelect level s).session = s.session := by simp [driveSelect]
@[simp] theorem driveSelect_tlast (level : Bool) (s : State) : (driveSelect level s).tlast = s.tlast := by simp [driveSelect]
@[simp] theorem driveSelect_params (level : Bool) (s : State) : (driveSelect level s).params = s.params := by simp [driveSelect]
@[simp] theorem driveSelect_trace (level : Bool) (s : State) : (driveSelect level s).trace = s.trace ++ [.line .select level] := by simp [driveSelect]
@[simp] theorem driveSelect_hostIn (level : Bool) (s : State) : (driveSelect level s).hostIn = s.hostIn := by simp [driveSelect]
@[simp] theorem driveSelect_hostOut (level : Bool) (s : State) : (driveSelect level s).hostOut = s.hostOut := by simp [driveSelect]
@[simp] theorem driveSelect_answers (level : Bool) (s : State) : (driveSelect level s).answers = s.answers := by simp [driveSelect]
@[simp] theorem driveSelect_answerDraws (level : Bool) (s : State) : (driveSelect level s).answerDraws = s.answerDraws := by simp [driveSelect]
@[simp] theorem driveSelect_freeDraws (level : Bool) (s : State) : (driveSelect level s).freeDraws = s.freeDraws := by simp [driveSelect]

@[simp] theorem takeCommand_frame (rest : List Byte) (s : State) : (takeCommand rest s).frame = s.frame := by simp [takeCommand]
@[simp] theorem takeCommand_fwr (rest : List Byte) (s : State) : (takeCommand rest s).fwr = s.fwr := by simp [takeCommand]
@[simp] theorem takeCommand_btn (rest : List Byte) (s : State) : (takeCommand rest s).btn = s.btn := by simp [takeCommand]
@[simp] theorem takeCommand_bwr (rest : List Byte) (s : State) : (takeCommand rest s).bwr = s.bwr := by simp [takeCommand]
@[simp] theorem takeCommand_delay (rest : List Byte) (s : State) : (takeCommand rest s).delay = s.delay := by simp [takeCommand]
@[simp] theorem takeCommand_cs (rest : List Byte) (s : State) : (takeCommand rest s).cs = s.cs := by simp [takeCommand]
@[simp] theorem takeCommand_cfgd (rest : List Byte) (s : State) : (takeCommand rest s).cfgd = s.cfgd := by simp [takeCommand]
@[simp] theorem takeCommand_session (rest : List Byte) (s : State) : (takeCommand rest s).session = s.session := by simp [takeCommand]
@[simp] theorem takeCommand_tlast (rest : List Byte) (s : State) : (takeCommand rest s).tlast = s.tlast := by simp [takeCommand]
@[simp] theorem takeCommand_params (rest : List Byte) (s : State) : (takeCommand rest s).params = s.params := by simp [takeCommand]
@[simp] theorem takeCommand_trace (rest : List Byte) (s : State) : (takeCommand rest s).trace = s.trace := by simp [takeCommand]
@[simp] theorem takeCommand_hostIn (rest : List Byte) (s : State) : (takeCommand rest s).hostIn = rest := by simp [takeCommand]
@[simp] theorem takeCommand_hostOut (rest : List Byte) (s : State) : (takeCommand rest s).hostOut = s.hostOut := by simp [takeCommand]
@[simp] theorem takeCommand_answers (rest : List Byte) (s : State) : (takeCommand rest s).answers = s.answers := by simp [takeCommand]
@[simp] theorem takeCommand_answerDraws (rest : List Byte) (s : State) : (takeCommand rest s).answerDraws = s.answerDraws := by simp [takeCommand]
@[simp] theorem takeCommand_freeDraws (rest : List Byte) (s : State) : (takeCommand rest s).freeDraws = s.freeDraws := by simp [takeCommand]

@[simp] theorem nextAnswer_frame (s : State) : ((nextAnswer s).2).frame = s.frame := by unfold nextAnswer; split <;> rfl
@[simp] theorem nextAnswer_fwr (s : State) : ((nextAnswer s).2).fwr = s.fwr := by unfold nextAnswer; split <;> rfl
@[simp] theorem nextAnswer_btn (s : State) : ((nextAnswer s).2).btn = s.btn := by unfold nextAnswer; split <;> rfl
@[simp] theorem nextAnswer_bwr (s : State) : ((nextAnswer s).2).bwr = s.bwr := by unfold nextAnswer; split <;> rfl
@[simp] theorem nextAnswer_delay (s : State) : ((nextAnswer s).2).delay = s.delay := by unfold nextAnswer; split <;> rfl
@[simp] theorem nextAnswer_cs (s : State) : ((nextAnswer s).2).cs = s.cs := by unfold nextAnswer; split <;> rfl
@[simp] theorem nextAnswer_cfgd (s : State) : ((nextAnswer s).2).cfgd = s.cfgd := by unfold nextAnswer; split <;> rfl
@[simp] theorem nextAnswer_session (s : State) : ((nextAnswer s).2).session = s.session := by unfold nextAnswer; split <;> rfl
@[simp] theorem nextAnswer_tlast (s : State) : ((nextAnswer s).2).tlast = s.tlast := by unfold nextAnswer; split <;> rfl
@[simp] theorem nextAnswer_params (s : State) : ((nextAnswer s).2).params = s.params := by unfold nextAnswer; split <;> rfl
@[simp] theorem nextAnswer_trace (s : State) : ((nextAnswer s).2).trace = s.trace := by unfold nextAnswer; split <;> rfl
@[simp] theorem nextAnswer_now (s : State) : ((nextAnswer s).2).now = s.now := by unfold nextAnswer; split <;> rfl
@[simp] theorem nextAnswer_hostIn (s : State) : ((nextAnswer s).2).hostIn = s.hostIn := by unfold nextAnswer; split <;> rfl
@[simp] theorem nextAnswer_hostOut (s : State) : ((nextAnswer s).2).hostOut = s.hostOut := by unfold nextAnswer; split <;> rfl
@[simp] theorem nextAnswer_ticks (s : State) : ((nextAnswer s).2).ticks = s.ticks := by unfold nextAnswer; split <;> rfl
@[simp] theorem nextAnswer_tickDraws (s : State) : ((nextAnswer s).2).tickDraws = s.tickDraws := by unfold nextAnswer; split <;> rfl
@[simp] theorem nextAnswer_freeDraws (s : State) : ((nextAnswer s).2).freeDraws = s.freeDraws := by unfold nextAnswer; split <;> rfl

@[simp] theorem backOff_frame (ok : Bool) (s : State) : (backOff ok s).frame = s.frame := by unfold backOff; split <;> simp
@[simp] theorem backOff_fwr (ok : Bool) (s : State) : (backOff ok s).fwr = s.fwr := by unfold backOff; split <;> simp
@[simp] theorem backOff_btn (ok : Bool) (s : State) : (backOff ok s).btn = s.btn := by unfold backOff; split <;> simp
@[simp] theorem backOff_bwr (ok : Bool) (s : State) : (backOff ok s).bwr = s.bwr := by unfold backOff; split <;> simp
@[simp] theorem backOff_cs (ok : Bool) (s : State) : (backOff ok s).cs = s.cs := by unfold backOff; split <;> simp
@[simp] theorem backOff_cfgd (ok : Bool) (s : State) : (backOff ok s).cfgd = s.cfgd := by unfold backOff; split <;> simp
@[simp] theorem backOff_session (ok : Bool) (s : State) : (backOff ok s).session = s.session := by unfold backOff; split <;> simp
@[simp] theorem backOff_tlast (ok : Bool) (s : State) : (backOff ok s).tlast = s.tlast := by unfold backOff; split <;> simp
@[simp] theorem backOff_params (ok : Bool) (s : State) : (backOff ok s).params = s.params := by unfold backOff; split <;> simp
@[simp] theorem backOff_trace (ok : Bool) (s : State) : (backOff ok s).trace = s.trace := by unfold backOff; split <;> simp
@[simp] theorem backOff_now (ok : Bool) (s : State) : (backOff ok s).now = s.now := by unfold backOff; split <;> simp
@[simp] theorem backOff_hostIn (ok : Bool) (s : State) : (backOff ok s).hostIn = s.hostIn := by unfold backOff; split <;> simp
@[simp] theorem backOff_hostOut (ok : Bool) (s : State) : (backOff ok s).hostOut = s.hostOut := by unfold backOff; split <;> simp
@[simp] theorem backOff_answers (ok : Bool) (s : State) : (backOff ok s).answers = s.answers := by unfold backOff; split <;> simp
@[simp] theorem backOff_answerDraws (ok : Bool) (s : State) : (backOff ok s).answerDraws = s.answerDraws := by unfold backOff; split <;> simp
@[simp] theorem backOff_ticks (ok : Bool) (s : State) : (backOff ok s).ticks = s.ticks := by unfold backOff; split <;> simp
@[simp] theorem backOff_tickDraws (ok : Bool) (s : State) : (backOff ok s).tickDraws = s.tickDraws := by unfold backOff; split <;> simp
@[simp] theorem backOff_freeDraws (ok : Bool) (s : State) : (backOff ok s).freeDraws = s.freeDraws := by unfold backOff; split <;> simp

@[simp] theorem noteResult_frame (ok : Bool) (s : State) : (noteResult ok s).frame = s.frame := by unfold noteResult; split <;> simp
@[simp] theorem noteResult_fwr (ok : Bool) (s : State) : (noteResult ok s).fwr = s.fwr := by unfold noteResult; split <;> simp
@[simp] theorem noteResult_btn (ok : Bool) (s : State) : (noteResult ok s).btn = s.btn := by unfold noteResult; split <;> simp
@[simp] theorem noteResult_bwr (ok : Bool) (s : State) : (noteResult ok s).bwr = s.bwr := by unfold noteResult; split <;> simp
@[simp] theorem noteResult_delay (ok : Bool) (s : State) : (noteResult ok s).delay = s.delay := by unfold noteResult; split <;> simp
@[simp] theorem noteResult_cs (ok : Bool) (s : State) : (noteResult ok s).cs = s.cs := by unfold noteResult; split <;> simp
@[simp] theorem noteResult_cfgd (ok : Bool) (s : State) : (noteResult ok s).cfgd = s.cfgd := by unfold noteResult; split <;> simp
@[simp] theorem noteResult_tlast (ok : Bool) (s : State) : (noteResult ok s).tlast = s.tlast := by unfold noteResult; split <;> simp
@[simp] theorem noteResult_params (ok : Bool) (s : State) : (noteResult ok s).params = s.params := by unfold noteResult; split <;> simp
@[simp] theorem noteResult_trace (ok : Bool) (s : State) : (noteResult ok s).trace = s.trace := by unfold noteResult; split <;> simp
@[simp] theorem noteResult_now (ok : Bool) (s : State) : (noteResult ok s).now = s.now := by unfold noteResult; split <;> simp
@[simp] theorem noteResult_hostIn (ok : Bool) (s : State) : (noteResult ok s).hostIn = s.hostIn := by unfold noteResult; split <;> simp
@[simp] theorem noteResult_hostOut (ok : Bool) (s : State) : (noteResult ok s).hostOut = s.hostOut := by unfold noteResult; split <;> simp
@[simp] theorem noteResult_answers (ok : Bool) (s : State) : (noteResult ok s).answers = s.answers := by unfold noteResult; split <;> simp
@[simp] theorem noteResult_answerDraws (ok : Bool) (s : State) : (noteResult ok s).answerDraws = s.answerDraws := by unfold noteResult; split <;> simp
@[simp] theorem noteResult_ticks (ok : Bool) (s : State) : (noteResult ok s).ticks = s.ticks := by unfold noteResult; split <;> simp
@[simp] theorem noteResult_tickDraws (ok : Bool) (s : State) : (noteResult ok s).tickDraws = s.tickDraws := by unfold noteResult; split <;> simp
@[simp] theorem noteResult_freeDraws (ok : Bool) (s : State) : (noteResult ok s).freeDraws = s.freeDraws := by unfold noteResult; split <;> simp

@[simp] theorem raiseDelay_frame (s : State) : (raiseDelay s).frame = s.frame := by unfold raiseDelay; split <;> simp
@[simp] theorem raiseDelay_fwr (s : State) : (raiseDelay s).fwr = s.fwr := by unfold raiseDelay; split <;> simp
@[simp] theorem raiseDelay_btn (s : State) : (raiseDelay s).btn = s.btn := by unfold raiseDelay; split <;> simp
@[simp] theorem raiseDelay_bwr (s : State) : (raiseDelay s).bwr = s.bwr := by unfold raiseDelay; split <;> simp
@[simp] theorem raiseDelay_cs (s : State) : (raiseDelay s).cs = s.cs := by unfold raiseDelay; split <;> simp
@[simp] theorem raiseDelay_cfgd (s : State) : (raiseDelay s).cfgd = s.cfgd := by unfold raiseDelay; split <;> simp
@[simp] theorem raiseDelay_session (s : State) : (raiseDelay s).session = s.session := by unfold raiseDelay; split <;> simp
@[simp] theorem raiseDelay_tlast (s : State) : (raiseDelay s).tlast = s.tlast := by unfold raiseDelay; split <;> simp
@[simp] theorem raiseDelay_params (s : State) : (raiseDelay s).params = s.params := by unfold raiseDelay; split <;> simp
@[simp] theorem raiseDelay_trace (s : State) : (raiseDelay s).trace = s.trace := by unfold raiseDelay; split <;> simp
@[simp] theorem raiseDelay_now (s : State) : (raiseDelay s).now = s.now := by unfold raiseDelay; split <;> simp
@[simp] theorem raiseDelay_hostIn (s : State) : (raiseDelay s).hostIn = s.hostIn := by unfold raiseDelay; split <;> simp
@[simp] theorem raiseDelay_hostOut (s : State) : (raiseDelay s).hostOut = s.hostOut := by unfold raiseDelay; split <;> simp
@[simp] theorem raiseDelay_answers (s : State) : (raiseDelay s).answers = s.answers := by unfold raiseDelay; split <;> simp
@[simp] theorem raiseDelay_answerDraws (s : State) : (raiseDelay s).answerDraws = s.answerDraws := by unfold raiseDelay; split <;> simp
@[simp] theorem raiseDelay_ticks (s : State) : (raiseDelay s).ticks = s.ticks := by unfold raiseDelay; split <;> simp
@[simp] theorem raiseDelay_tickDraws (s : State) : (raiseDelay s).tickDraws = s.tickDraws := by unfold raiseDelay; split <;> simp
@[simp] theorem raiseDelay_freeDraws (s : State) : (raiseDelay s).freeDraws = s.freeDraws := by unfold raiseDelay; split <;> simp

@[simp] theorem registers_elapse (least : Nat) (s : State) : registers (elapse least s) = registers s := by simp [registers]
@[simp] theorem registers_complete (data : List Byte) (s : State) : registers (complete data s) = registers s := rfl
@[simp] theorem registers_endWith (c : ResultCode) (s : State) : registers (endWith c s) = registers s := rfl
@[simp] theorem registers_frame_eq (s : State) : (registers s).frame = s.frame := rfl
@[simp] theorem registers_fwr_eq (s : State) : (registers s).fwr = s.fwr := rfl
@[simp] theorem registers_btn_eq (s : State) : (registers s).btn = s.btn := rfl
@[simp] theorem registers_bwr_eq (s : State) : (registers s).bwr = s.bwr := rfl
@[simp] theorem registers_delay_eq (s : State) : (registers s).delay = s.delay := rfl
@[simp] theorem registers_cs_eq (s : State) : (registers s).cs = s.cs := rfl
@[simp] theorem registers_cfgd_eq (s : State) : (registers s).cfgd = s.cfgd := rfl
@[simp] theorem registers_session_eq (s : State) : (registers s).session = s.session := rfl
@[simp] theorem registers_tlast_eq (s : State) : (registers s).tlast = s.tlast := rfl

end Sys2Proof.Machine
end

