-- ==== Sys2Proof/Laws/Ops.lean ====
section
/-!
SUPPORT. One lemma per shared operation that says everything it can do: how it evolves the trace, the
clock and the peer (`Evolves`), and what it leaves of the registers.
-/

namespace Sys2Proof.Machine

/-! ### Answers and ticks -/

@[simp] theorem length_answersFrom (s : State) (k n : Nat) : (answersFrom s k n).length = n := by
  simp [answersFrom]

@[simp] theorem answersFrom_zero (s : State) (k : Nat) : answersFrom s k 0 = [] := rfl

theorem answersFrom_add (s : State) (k m n : Nat) :
    answersFrom s k (m + n) = answersFrom s k m ++ answersFrom s (k + m) n := by
  simp [answersFrom, List.range_add, Function.comp_def, Nat.add_assoc]

theorem answersFrom_shift {s t : State} {m : Nat} (h : ∀ k, answerAt t k = answerAt s (m + k))
    (k n : Nat) : answersFrom t k n = answersFrom s (m + k) n := by
  simp [answersFrom, h, Nat.add_assoc]

theorem nextAnswer_fst (s : State) : (nextAnswer s).1 = answerAt s 0 := by
  unfold nextAnswer answerAt
  split <;> simp_all

theorem answerAt_nextAnswer (s : State) (k : Nat) :
    answerAt (nextAnswer s).2 k = answerAt s (k + 1) := by
  cases h : s.answers with
  | nil => simp [nextAnswer, answerAt, h, Nat.add_assoc, Nat.add_comm 1 k]
  | cons r later => simp [nextAnswer, answerAt, h]

theorem tickSum_succ (s : State) (n : Nat) : tickSum s (n + 1) = tickSum s n + tickAt s n := by
  simp [tickSum, List.range_succ]

theorem tickSum_add (s : State) (m n : Nat) :
    tickSum s (m + n) = tickSum s m + ((List.range n).map fun j => tickAt s (m + j)).sum := by
  simp [tickSum, List.range_add, Function.comp_def]

theorem now_elapse (least : Nat) (s : State) : (elapse least s).now = s.now + least + tickAt s 0 := by
  unfold elapse tickAt
  split <;> simp_all

theorem tickAt_elapse (least : Nat) (s : State) (k : Nat) :
    tickAt (elapse least s) k = tickAt s (k + 1) := by
  cases h : s.ticks with
  | nil => simp [elapse, tickAt, h, Nat.add_assoc, Nat.add_comm 1 k]
  | cons extra later => simp [elapse, tickAt, h]

/-- What a state answers and how its clock ticks depends on four fields only. -/
theorem answerAt_congr {s t : State} (h : t.answers = s.answers) (g : t.answerDraws = s.answerDraws)
    (k : Nat) : answerAt t k = answerAt s k := by
  simp [answerAt, h, g]

theorem tickAt_congr {s t : State} (h : t.ticks = s.ticks) (g : t.tickDraws = s.tickDraws)
    (k : Nat) : tickAt t k = tickAt s k := by
  simp [tickAt, h, g]

/-! ### Traces -/

@[simp] theorem received_nil : received [] = [] := rfl
@[simp] theorem received_append (a b : List Event) : received (a ++ b) = received a ++ received b := by
  simp [received]
@[simp] theorem received_line (l : BusLine) (b : Bool) (ev : List Event) :
    received (.line l b :: ev) = received ev := rfl
@[simp] theorem received_delay (n : Nat) (ev : List Event) :
    received (.delay n :: ev) = received ev := rfl
@[simp] theorem received_configure (p : Pins) (ev : List Event) :
    received (.configure p :: ev) = received ev := rfl
@[simp] theorem received_setFrame (w m : Nat) (ev : List Event) :
    received (.setFrame w m :: ev) = received ev := rfl
@[simp] theorem received_setClock (hz : Nat) (ev : List Event) :
    received (.setClock hz :: ev) = received ev := rfl
@[simp] theorem received_xfer (o i : Byte) (ev : List Event) :
    received (.xfer o i :: ev) = i :: received ev := rfl

@[simp] theorem transferCount_append (a b : List Event) :
    transferCount (a ++ b) = transferCount a + transferCount b := by
  simp [transferCount]

@[simp] theorem leastTime_append (a b : List Event) : leastTime (a ++ b) = leastTime a + leastTime b := by
  simp [leastTime]

@[simp] theorem exchangeCount_append (a b : List Event) :
    exchangeCount (a ++ b) = exchangeCount a + exchangeCount b := by
  simp [exchangeCount]

@[simp] theorem transferCount_nil : transferCount [] = 0 := rfl
@[simp] theorem exchangeCount_nil : exchangeCount [] = 0 := rfl

@[simp] theorem transferCount_cons_delay (n : Nat) (ev : List Event) :
    transferCount (.delay n :: ev) = transferCount ev := rfl

@[simp] theorem exchangeCount_cons_delay (n : Nat) (ev : List Event) :
    exchangeCount (.delay n :: ev) = exchangeCount ev := by
  simp [exchangeCount]

theorem received_zipWith_xfer : ∀ (sent got : List Byte), sent.length = got.length →
    received (List.zipWith Event.xfer sent got) = got
  | [], [], _ => rfl
  | _ :: sent, _ :: got, h => by
    simp [received_zipWith_xfer sent got (by simpa using h)]

theorem leastTime_zipWith_xfer : ∀ (sent got : List Byte),
    leastTime (List.zipWith Event.xfer sent got) = 0
  | [], _ => by simp [leastTime]
  | _ :: _, [] => by simp [leastTime]
  | _ :: sent, _ :: got => by
    simpa [leastTime, leastDuration] using leastTime_zipWith_xfer sent got

theorem exchangeCount_zipWith_xfer : ∀ (sent got : List Byte),
    exchangeCount (List.zipWith Event.xfer sent got) = 0
  | [], _ => by simp [exchangeCount]
  | _ :: _, [] => by simp [exchangeCount]
  | _ :: sent, _ :: got => by
    simpa [exchangeCount, List.count_cons] using exchangeCount_zipWith_xfer sent got

/-! ### Evolution -/

theorem Evolves.refl (s : State) : Evolves s s [] where
  trace := by simp
  received := by simp [transferCount]
  answers := by simp [transferCount]
  now := by simp [leastTime, tickSum]
  ticks := by simp
  params := rfl
  hostIn := rfl
  hostOut := rfl
  freeDraws := rfl

theorem Evolves.trans {s t u : State} {a b : List Event} {m n : Nat} (h : Evolves s t a m)
    (g : Evolves t u b n) : Evolves s u (a ++ b) (m + n) where
  trace := by rw [g.trace, h.trace, List.append_assoc]
  received := by
    rw [received_append, h.received, g.received, transferCount_append, answersFrom_add,
      answersFrom_shift h.answers]
    simp
  answers k := by rw [g.answers, h.answers, transferCount_append, Nat.add_assoc]
  now := by
    have hb : tickSum t (b.length + n) =
        ((List.range (b.length + n)).map fun j => tickAt s (a.length + m + j)).sum := by
      simp [tickSum, funext h.ticks]
    rw [g.now, h.now, leastTime_append, List.length_append,
      Nat.add_add_add_comm a.length b.length m n, tickSum_add s (a.length + m), hb]
    omega
  ticks k := by
    rw [g.ticks, h.ticks, List.length_append]
    exact congrArg (tickAt s) (by omega)
  params := g.params.trans h.params
  hostIn := g.hostIn.trans h.hostIn
  hostOut := g.hostOut.trans h.hostOut
  freeDraws := g.freeDraws.trans h.freeDraws

/-- A change of registers alone is no evolution: it adds no event. -/
theorem Evolves.of_registers {s t u : State} {ev : List Event} {gaps : Nat} (h : Evolves s t ev gaps)
    (trace : u.trace = t.trace := by first | rfl | simp) (answers : u.answers = t.answers := by first | rfl | simp)
    (answerDraws : u.answerDraws = t.answerDraws := by first | rfl | simp) (now : u.now = t.now := by first | rfl | simp)
    (ticks : u.ticks = t.ticks := by first | rfl | simp) (tickDraws : u.tickDraws = t.tickDraws := by first | rfl | simp)
    (params : u.params = t.params := by first | rfl | simp) (hostIn : u.hostIn = t.hostIn := by first | rfl | simp)
    (hostOut : u.hostOut = t.hostOut := by first | rfl | simp) (freeDraws : u.freeDraws = t.freeDraws := by first | rfl | simp) :
    Evolves s u ev gaps where
  trace := trace.trans h.trace
  received := h.received
  answers k := (answerAt_congr answers answerDraws k).trans (h.answers k)
  now := now.trans h.now
  ticks k := (tickAt_congr ticks tickDraws k).trans (h.ticks k)
  params := params.trans h.params
  hostIn := hostIn.trans h.hostIn
  hostOut := hostOut.trans h.hostOut
  freeDraws := freeDraws.trans h.freeDraws

/-- A gap adds no event and takes one tick. -/
theorem elapse_evolves (s : State) : Evolves s (elapse 0 s) [] 1 where
  trace := by simp
  received := by simp [transferCount]
  answers k := by
    rw [answerAt_congr (s := s) (by simp) (by simp)]
    simp [transferCount]
  now := by simp [now_elapse, leastTime, tickSum]
  ticks k := by
    rw [tickAt_elapse, Nat.add_comm]
    rfl
  params := by simp
  hostIn := by simp
  hostOut := by simp
  freeDraws := by simp

/-- An event that moves no byte: it is appended, and its time passes. -/
theorem emit_evolves (e : Event) (s : State) (h : received [e] = []) : Evolves s (emit e s) [e] where
  trace := by simp
  received := by simp [h, transferCount]
  answers k := by
    rw [answerAt_congr (s := s) (by simp) (by simp)]
    simp [h, transferCount]
  now := by
    simp [emit, now_elapse, leastTime, tickSum]
    rfl
  ticks k := by
    rw [emit, tickAt_elapse, List.length_singleton, Nat.add_comm]
    rfl
  params := by simp
  hostIn := by simp
  hostOut := by simp
  freeDraws := by simp

theorem delayFor_evolves (n : Nat) (s : State) : Evolves s (delayFor n s) [.delay n] :=
  emit_evolves _ _ rfl

theorem driveSelect_evolves (level : Bool) (s : State) :
    Evolves s (driveSelect level s) [.line .select level] :=
  (emit_evolves _ _ rfl).of_registers

/-- One transfer: the byte is PEER's next answer. -/
theorem xfer_fst (o : Byte) (s : State) : (xfer o s).1 = answerAt s 0 := nextAnswer_fst s

theorem xfer_evolves (o : Byte) (s : State) : Evolves s (xfer o s).2 [.xfer o (answerAt s 0)] where
  trace := by simp [xfer, nextAnswer_fst]
  received := by simp [transferCount, answersFrom]
  answers k := by
    rw [xfer, answerAt_congr (s := (nextAnswer s).2) (by simp) (by simp), answerAt_nextAnswer,
      Nat.add_comm]
    rfl
  now := by
    simp [xfer, emit, now_elapse, leastTime, leastDuration, tickSum]
    exact tickAt_congr (by simp) (by simp) 0
  ticks k := by
    rw [xfer, emit, tickAt_elapse, List.length_singleton, Nat.add_comm]
    exact tickAt_congr (by simp) (by simp) _
  params := by simp [xfer]
  hostIn := by simp [xfer]
  hostOut := by simp [xfer]
  freeDraws := by simp [xfer]

theorem xfer_registers (o : Byte) (s : State) : registers (xfer o s).2 = registers s := by
  simp [registers, xfer]

/-! ### The exchange -/

/-- The transfer loop: the response is PEER's next answers through the codec, and the registers stand. -/
theorem transferBytes_spec : ∀ (cmd : List Byte) (s : State),
    (transferBytes cmd s).1 = protocolFrom s 0 cmd.length ∧
    Evolves s (transferBytes cmd s).2
      (List.zipWith Event.xfer (codecImage cmd) (answersFrom s 0 cmd.length)) ∧
    registers (transferBytes cmd s).2 = registers s
  | [], s => ⟨rfl, Evolves.refl s, rfl⟩
  | b :: later, s => by
    obtain ⟨resp, evolves, regs⟩ := transferBytes_spec later (xfer (reverse8 b) s).2
    have first := xfer_evolves (reverse8 b) s
    have tail : answersFrom (xfer (reverse8 b) s).2 0 later.length = answersFrom s 1 later.length :=
      answersFrom_shift first.answers 0 later.length
    have all : answersFrom s 0 (later.length + 1) = answerAt s 0 :: answersFrom s 1 later.length := by
      rw [Nat.add_comm, answersFrom_add]
      rfl
    refine ⟨?_, ?_, ?_⟩
    · simp [transferBytes, resp, protocolFrom, tail, all, xfer_fst]
    · rw [List.length_cons, all]
      rw [tail] at evolves
      exact first.trans evolves
    · simpa [transferBytes, xfer_registers] using regs

theorem selectPeer_spec (s : State) :
    Evolves s (selectPeer s)
      [.line .dataOut true, .line .clock true, .line .select false, .delay 5] ∧
    registers (selectPeer s) = { registers s with cs := false } := by
  refine ⟨?_, by simp [registers, selectPeer]⟩
  exact (((emit_evolves _ s rfl).trans (emit_evolves _ _ rfl)).trans (driveSelect_evolves _ _)).trans
    (delayFor_evolves _ _)

theorem releasePeer_spec (s : State) :
    Evolves s (releasePeer s) [.line .select true, .delay s.delay.toNat] ∧
    registers (releasePeer s) = { registers s with cs := true } := by
  refine ⟨?_, by simp [registers, releasePeer]⟩
  simpa [releasePeer] using (driveSelect_evolves true s).trans (delayFor_evolves s.delay.toNat _)

/-- One exchange (R110): the response, the trace, and the registers, which keep all but `CS`. -/
theorem exchange_spec (cmd : List Byte) (s : State) :
    (exchange cmd s).1 = protocolFrom s 0 cmd.length ∧
    Evolves s (exchange cmd s).2
      (exchangeTrace (codecImage cmd) (answersFrom s 0 cmd.length) s.delay.toNat) ∧
    registers (exchange cmd s).2 = { registers s with cs := true } := by
  obtain ⟨headEvolves, headRegs⟩ := selectPeer_spec s
  obtain ⟨resp, loopEvolves, loopRegs⟩ := transferBytes_spec cmd (selectPeer s)
  obtain ⟨tailEvolves, tailRegs⟩ := releasePeer_spec (transferBytes cmd (selectPeer s)).2
  have same : answersFrom (selectPeer s) 0 cmd.length = answersFrom s 0 cmd.length := by
    simpa [transferCount] using answersFrom_shift headEvolves.answers 0 cmd.length
  have delay : (transferBytes cmd (selectPeer s)).2.delay = s.delay := by
    have := congrArg Registers.delay (loopRegs.trans headRegs)
    simpa [registers] using this
  refine ⟨?_, ?_, ?_⟩
  · simp [exchange, resp, protocolFrom, same]
  · rw [delay] at tailEvolves
    rw [same] at loopEvolves
    exact (headEvolves.trans loopEvolves).trans tailEvolves
  · simp only [exchange, tailRegs, loopRegs, headRegs]

theorem transferCount_exchangeTrace (sent got : List Byte) (d : Nat) (h : sent.length = got.length) :
    transferCount (exchangeTrace sent got d) = sent.length := by
  simp [exchangeTrace, transferCount, received_zipWith_xfer _ _ h, h]

theorem length_exchangeTrace (sent got : List Byte) (d : Nat) (h : sent.length = got.length) :
    (exchangeTrace sent got d).length = sent.length + 6 := by
  simp [exchangeTrace, h]

theorem exchangeCount_exchangeTrace (sent got : List Byte) (d : Nat) :
    exchangeCount (exchangeTrace sent got d) = 1 := by
  rw [exchangeTrace, exchangeCount_append, exchangeCount_append, exchangeCount_zipWith_xfer]
  simp [exchangeCount]

theorem leastTime_exchangeTrace (sent got : List Byte) (d : Nat) :
    leastTime (exchangeTrace sent got d) = 5 + d := by
  rw [exchangeTrace, leastTime_append, leastTime_append, leastTime_zipWith_xfer]
  simp [leastTime, leastDuration]

/-! ### Reads of FRAME and BTN -/

/-- A read of a written FRAME answers the stored byte and changes nothing (R9). -/
theorem memRead_written (i : Fin 9) (s : State) (h : s.fwr = true) : memRead i s = (s.frame[i], s) := by
  simp [memRead, h]

/-- A read of an unwritten FRAME draws a free value (R36). -/
theorem memRead_unwritten (i : Fin 9) (s : State) (h : s.fwr = false) :
    memRead i s = (Config.freeByte s.freeDraws, { s with freeDraws := s.freeDraws + 1 }) := by
  simp [memRead, h]

theorem readBtn_written (s : State) (h : s.bwr = true) : readBtn s = (s.btn, s) := by
  simp [readBtn, h]

theorem readBtn_unwritten (s : State) (h : s.bwr = false) :
    readBtn s = (Config.freeMask s.freeDraws, { s with freeDraws := s.freeDraws + 1 }) := by
  simp [readBtn, h]

/-- A byte of FRAME read after XRD's store is the byte stored (R115). -/
theorem memRead_storeFrame (resp : List Byte) (i : Fin 9) (s : State) :
    memRead i (storeFrame resp s) = (resp.getD i 0, storeFrame resp s) := by
  simp [memRead]

/-- Reads change no register and move nothing; at most a free value is drawn. -/
theorem memRead_registers (i : Fin 9) (s : State) : registers (memRead i s).2 = registers s := by
  unfold memRead
  split <;> rfl

theorem readBtn_registers (s : State) : registers (readBtn s).2 = registers s := by
  unfold readBtn
  split <;> rfl

end Sys2Proof.Machine
end

