-- ==== Sys2Proof/Laws/Bus.lean ====
section
/-!
SUPPORT. The bus discipline over sequences of events, and over one exchange.
-/

namespace Sys2Proof.Machine

theorem busRun_append (p : BusPhase) (a b : List Event) :
    busRun p (a ++ b) = (busRun p a).bind (busRun · b) := by
  induction a generalizing p with
  | nil => rfl
  | cons e later ih =>
    simp only [List.cons_append, busRun]
    cases busNext p e with
    | none => rfl
    | some q => exact ih q

/-- Two sequences that each begin and end between exchanges do so joined. -/
theorem busRun_idle_append {a b : List Event} (ha : busRun .idle a = some .idle)
    (hb : busRun .idle b = some .idle) : busRun .idle (a ++ b) = some .idle := by
  rw [busRun_append, ha]
  exact hb

theorem busRun_transfers : ∀ (sent got : List Byte) (moved : Nat), sent.length = got.length →
    moved + sent.length ≤ 9 →
    busRun (.shifting moved) (List.zipWith Event.xfer sent got) = some (.shifting (moved + sent.length))
  | [], [], _, _, _ => rfl
  | _ :: sent, _ :: got, moved, same, room => by
    simp only [List.length_cons] at same room
    have := busRun_transfers sent got (moved + 1) (by omega) (by omega)
    simp only [List.zipWith_cons_cons, busRun, busNext, if_pos (show moved < 9 by omega)]
    rw [this, List.length_cons]
    congr 2
    omega

/-- One exchange of 1 to 9 bytes keeps the discipline. -/
theorem busRun_exchangeTrace (sent got : List Byte) (d : Nat) (same : sent.length = got.length)
    (least : 1 ≤ sent.length) (most : sent.length ≤ 9) :
    busRun .idle (exchangeTrace sent got d) = some .idle := by
  rw [exchangeTrace, List.append_assoc, busRun_append]
  have head : busRun .idle
      [.line .dataOut true, .line .clock true, .line .select false, .delay 5] =
        some (.shifting 0) := rfl
  rw [head, Option.bind_some, busRun_append, busRun_transfers _ _ 0 same (by omega), Option.bind_some]
  simp only [busRun, busNext, Nat.zero_add, if_neg (show sent.length ≠ 0 by omega)]

end Sys2Proof.Machine
end

