-- ==== Sys2Proof/Laws/Session.lean ====
section
/-!
SUPPORT. One lemma per shared operation of the sequencer that says everything it can do: its events, the
bus discipline, its counts, and the registers it leaves.
-/

namespace Sys2Proof.Machine

/-! ### The register view -/

/-- A register's value, read off an equation of register records. -/
theorem registers_delay {s t : State} (h : registers t = { registers s with cs := true }) :
    t.delay = s.delay := by simpa using congrArg Registers.delay h

/-! ### Renegotiation and the read-data exchange -/

theorem negTrace_shift {s t : State} {m : Nat} (h : ∀ k, answerAt t k = answerAt s (m + k))
    (d : t.delay = s.delay) (k : Nat) : negTrace t k = negTrace s (m + k) := by
  simp [negTrace, answersFrom_shift h, d, Nat.add_assoc]

theorem xrdTrace_shift {s t : State} {m : Nat} (h : ∀ k, answerAt t k = answerAt s (m + k))
    (d : t.delay = s.delay) (k : Nat) : xrdTrace t k = xrdTrace s (m + k) := by
  simp [xrdTrace, answersFrom_shift h, d]

@[simp] theorem transferCount_negTrace (s : State) (k : Nat) : transferCount (negTrace s k) = 23 := by
  simp [negTrace, transferCount_exchangeTrace]

@[simp] theorem exchangeCount_negTrace (s : State) (k : Nat) : exchangeCount (negTrace s k) = 3 := by
  simp [negTrace, exchangeCount_exchangeTrace]

@[simp] theorem length_negTrace (s : State) (k : Nat) : (negTrace s k).length = 41 := by
  simp [negTrace, length_exchangeTrace]

@[simp] theorem busRun_negTrace (s : State) (k : Nat) : busRun .idle (negTrace s k) = some .idle := by
  refine busRun_idle_append (busRun_idle_append ?_ ?_) ?_ <;>
    exact busRun_exchangeTrace _ _ _ (by simp) (by simp) (by simp)

@[simp] theorem transferCount_xrdTrace (s : State) (k : Nat) : transferCount (xrdTrace s k) = 9 := by
  simp [xrdTrace, transferCount_exchangeTrace]

@[simp] theorem exchangeCount_xrdTrace (s : State) (k : Nat) : exchangeCount (xrdTrace s k) = 1 := by
  simp [xrdTrace, exchangeCount_exchangeTrace]

@[simp] theorem busRun_xrdTrace (s : State) (k : Nat) : busRun .idle (xrdTrace s k) = some .idle :=
  busRun_exchangeTrace _ _ _ (by simp) (by simp) (by simp)

@[simp] theorem busRun_delay (n : Nat) : busRun .idle [.delay n] = some .idle := rfl

/-- NEG's three exchanges (R161): the trace, and the registers, which keep all but `CS`. -/
theorem negotiate_spec (s : State) :
    Evolves s (negotiate s) (negTrace s 0) ∧
    registers (negotiate s) = { registers s with cs := true } := by
  obtain ⟨-, enter, enterRegs⟩ := exchange_spec enterConfiguration s
  obtain ⟨-, set, setRegs⟩ := exchange_spec setAnalogMode (exchange enterConfiguration s).2
  obtain ⟨-, leave, leaveRegs⟩ := exchange_spec exitConfiguration
    (exchange setAnalogMode (exchange enterConfiguration s).2).2
  have setDelay : (exchange enterConfiguration s).2.delay = s.delay := registers_delay enterRegs
  have leaveDelay : (exchange setAnalogMode (exchange enterConfiguration s).2).2.delay = s.delay :=
    (registers_delay setRegs).trans setDelay
  have both := enter.trans set
  rw [answersFrom_shift enter.answers, setDelay] at set
  rw [answersFrom_shift both.answers, leaveDelay] at leave
  refine ⟨?_, by rw [negotiate, leaveRegs, setRegs, enterRegs]⟩
  have all := (enter.trans set).trans leave
  simpa [negTrace, negotiate, codecImage_enterConfiguration, codecImage_setAnalogMode,
    codecImage_exitConfiguration, transferCount_exchangeTrace] using all

theorem frameFrom_shift {s t : State} {m : Nat} (h : ∀ k, answerAt t k = answerAt s (m + k))
    (k : Nat) : frameFrom t k = frameFrom s (m + k) := by
  simp [frameFrom, h, Nat.add_assoc]

/-- The accepted XRD (R115): the response, the trace, and the registers. -/
theorem readDataExchange_spec (s : State) :
    (readDataExchange s).1 = protocolFrom s 0 9 ∧
    Evolves s (readDataExchange s).2 (xrdTrace s 0) ∧
    registers (readDataExchange s).2 =
      { registers s with cs := true, fwr := true, frame := frameFrom s 0 } := by
  obtain ⟨resp, evolves, regs⟩ := exchange_spec readData s
  refine ⟨resp, ?_, ?_⟩
  · simpa [xrdTrace, codecImage_readData, readDataExchange] using
      evolves.of_registers (u := (readDataExchange s).2)
  · have stored : (Vector.ofFn fun i : Fin 9 => (protocolFrom s 0 9).getD i 0) = frameFrom s 0 := by
      ext i hi
      simp [frameFrom, protocolFrom, answersFrom]
    simp only [readDataExchange, resp, length_readData]
    simp only [registers, storeFrame_frame, stored, storeFrame_fwr, storeFrame_btn, storeFrame_bwr,
      storeFrame_delay, storeFrame_cs, storeFrame_cfgd, storeFrame_session,
      storeFrame_tlast] at regs ⊢
    simp_all

/-- The accepted CFG (R116). -/
theorem configure_spec (s : State) :
    Evolves s (configure s)
      [.configure s.params.pins, .setFrame 8 s.params.spiMode, .setClock s.params.clockHz,
        .line .select true] ∧
    registers (configure s) = { registers s with cs := true, cfgd := true } := by
  refine ⟨?_, by simp [registers, configure]⟩
  have calls := (((emit_evolves (.configure s.params.pins) s rfl).trans
    (emit_evolves (.setFrame 8 s.params.spiMode) _ rfl)).trans
    (emit_evolves (.setClock s.params.clockHz) _ rfl)).trans (driveSelect_evolves true _)
  exact calls.of_registers

/-- DEC of a written FRAME (R140). -/
theorem decodeButtons_written (s : State) (h : s.fwr = true) :
    decodeButtons s = { s with btn := packButtons s.frame[3] s.frame[4], bwr := true } := by
  simp [decodeButtons, memRead_written _ s h, h]

/-! ### READ -/

/-- The retry loop with at least one attempt to go: FRAME has been written, of the other registers only
`CS`, the bus discipline is kept, and the counts are bounded. -/
theorem attemptReads_spec : ∀ (left : Nat) (s : State),
    ∃ ev, Evolves s (attemptReads (left + 1) s) ev ∧
      registers (attemptReads (left + 1) s) =
        { registers s with
          cs := true, fwr := true, frame := (attemptReads (left + 1) s).frame } ∧
      busRun .idle ev = some .idle ∧
      1 ≤ exchangeCount ev ∧ 9 ≤ transferCount ev ∧
      exchangeCount ev ≤ 4 * left + (if s.params.negAfterLastAttempt then 4 else 1) ∧
      transferCount ev ≤ 32 * left + (if s.params.negAfterLastAttempt then 32 else 9) := by
  intro left
  induction left with
  | zero =>
    intro s
    obtain ⟨-, xrd, regs⟩ := readDataExchange_spec s
    obtain ⟨neg, negRegs⟩ := negotiate_spec (readDataExchange s).2
    have wait := delayFor_evolves (negotiate (readDataExchange s).2).delay.toNat
      (negotiate (readDataExchange s).2)
    have frame : (readDataExchange s).2.frame = frameFrom s 0 := by
      simpa using congrArg Registers.frame regs
    have negFrame : (negotiate (readDataExchange s).2).frame = frameFrom s 0 := by
      simpa [frame] using congrArg Registers.frame negRegs
    simp only [attemptReads]
    split
    · exact ⟨_, xrd, by rw [regs, frame], by simp, by simp, by simp, by simp; split <;> omega,
        by simp; split <;> omega⟩
    · simp only [xrd.params, ne_eq, not_true_eq_false, false_or]
      split
      · refine ⟨_, (xrd.trans neg).trans wait, ?_, ?_, by simp, by simp, by simp, by simp⟩
        · rw [regs] at negRegs
          simpa [retryWait, registers, negFrame] using negRegs
        · exact busRun_idle_append (busRun_idle_append (by simp) (by simp)) (by simp)
      · exact ⟨_, xrd, by rw [regs, frame], by simp, by simp, by simp, by simp, by simp⟩
  | succ left ih =>
    intro s
    obtain ⟨-, xrd, regs⟩ := readDataExchange_spec s
    obtain ⟨neg, negRegs⟩ := negotiate_spec (readDataExchange s).2
    have wait := delayFor_evolves (negotiate (readDataExchange s).2).delay.toNat
      (negotiate (readDataExchange s).2)
    have frame : (readDataExchange s).2.frame = frameFrom s 0 := by
      simpa using congrArg Registers.frame regs
    obtain ⟨ev, evolves, laterRegs, bus, least, leastBytes, most, mostBytes⟩ :=
      ih (retryWait (readDataExchange s).2)
    have params : (retryWait (readDataExchange s).2).params = s.params :=
      ((xrd.trans neg).trans wait).params
    have start : registers (retryWait (readDataExchange s).2) =
        { registers s with cs := true, fwr := true, frame := frameFrom s 0 } := by
      rw [regs] at negRegs
      simpa [retryWait, registers] using negRegs
    rw [attemptReads]
    dsimp only
    split
    · exact ⟨_, xrd, by rw [regs, frame], by simp, by simp, by simp, by simp; split <;> omega,
        by simp; split <;> omega⟩
    · rw [if_pos (Or.inl (Nat.succ_ne_zero left))]
      refine ⟨_, ((xrd.trans neg).trans wait).trans evolves, ?_, ?_, ?_, ?_, ?_, ?_⟩
      · rw [laterRegs, start]
      · exact busRun_idle_append (busRun_idle_append (busRun_idle_append (by simp) (by simp))
          (by simp)) bus
      · simp
      · simp
      · rw [params] at most
        simp; omega
      · rw [params] at mostBytes
        simp; omega

/-- READ's retry phase: the head's NEG and wait if due, then the retry loop. -/
theorem readFrame_spec (s : State) :
    ∃ ev, Evolves s (readFrame s) ev ∧
      registers (readFrame s) =
        { registers s with cs := true, fwr := true, frame := (readFrame s).frame } ∧
      busRun .idle ev = some .idle ∧
      1 ≤ exchangeCount ev ∧ 9 ≤ transferCount ev ∧
      exchangeCount ev ≤ (if s.params.negAfterLastAttempt then 23 else 20) ∧
      transferCount ev ≤ (if s.params.negAfterLastAttempt then 183 else 160) := by
  have head : ∃ ev, Evolves s (limitRate (s.now - s.tlast) (recoverIfStale (s.now - s.tlast) s)) ev ∧
      registers (limitRate (s.now - s.tlast) (recoverIfStale (s.now - s.tlast) s)) =
        { registers s with
          cs := (limitRate (s.now - s.tlast) (recoverIfStale (s.now - s.tlast) s)).cs } ∧
      busRun .idle ev = some .idle ∧ exchangeCount ev ≤ 3 ∧ transferCount ev ≤ 23 := by
    have stale : ∃ ev, Evolves s (recoverIfStale (s.now - s.tlast) s) ev ∧
        registers (recoverIfStale (s.now - s.tlast) s) =
          { registers s with cs := (recoverIfStale (s.now - s.tlast) s).cs } ∧
        busRun .idle ev = some .idle ∧ exchangeCount ev ≤ 3 ∧ transferCount ev ≤ 23 := by
      unfold recoverIfStale
      split
      · obtain ⟨neg, regs⟩ := negotiate_spec s
        refine ⟨_, neg, ?_, by simp, by simp, by simp⟩
        rw [show (negotiate s).cs = true by simpa using congrArg Registers.cs regs]
        exact regs
      · exact ⟨[], Evolves.refl s, rfl, rfl, by simp [exchangeCount], by simp [transferCount]⟩
    obtain ⟨ev, evolves, regs, bus, most, mostBytes⟩ := stale
    unfold limitRate
    split
    · refine ⟨_, evolves.trans (delayFor_evolves _ _), ?_, busRun_idle_append bus (by simp), by simpa,
        by simpa⟩
      simpa [registers] using regs
    · exact ⟨ev, evolves, regs, bus, most, mostBytes⟩
  obtain ⟨ev, evolves, regs, bus, most, mostBytes⟩ := head
  obtain ⟨ev', evolves', regs', bus', least, leastBytes, most', mostBytes'⟩ :=
    attemptReads_spec 4 (limitRate (s.now - s.tlast) (recoverIfStale (s.now - s.tlast) s))
  rw [evolves.params] at most' mostBytes'
  refine ⟨_, evolves.trans evolves', ?_, busRun_idle_append bus bus', ?_, ?_, ?_, ?_⟩
  · rw [readFrame, regs', regs]
  · simp; omega
  · simp; omega
  · simp; split at most' <;> split <;> omega
  · simp; split at mostBytes' <;> split <;> omega

/-- The whole READ: its result is the validity of the frame it leaves, the mask is that frame's, DELAY is
one higher after a miss below the ceiling, and TLAST is the time at its end (R162). -/
theorem readOnce_spec (s : State) :
    (readOnce s).1 = valid (readOnce s).2.frame ∧
    ∃ ev, Evolves s (readOnce s).2 ev ∧
      registers (readOnce s).2 =
        { registers s with
          cs := true, fwr := true, bwr := true
          frame := (readOnce s).2.frame
          btn := packButtons (readOnce s).2.frame[3] (readOnce s).2.frame[4]
          delay := if (!(readOnce s).1 && s.delay < delayCap) = true then s.delay + 1 else s.delay
          session := sessionAfterRead (readOnce s).1 s.session
          tlast := (readOnce s).2.now } ∧
      busRun .idle ev = some .idle ∧
      1 ≤ exchangeCount ev ∧ 9 ≤ transferCount ev ∧
      exchangeCount ev ≤ (if s.params.negAfterLastAttempt then 23 else 20) ∧
      transferCount ev ≤ (if s.params.negAfterLastAttempt then 183 else 160) := by
  obtain ⟨ev, evolves, regs, counts⟩ := readFrame_spec s
  have fwr : (backOff (valid (readFrame s).frame) (readFrame s)).fwr = true := by
    simpa using congrArg Registers.fwr regs
  have delay : (readFrame s).delay = s.delay := by simpa using congrArg Registers.delay regs
  have session : (readFrame s).session = s.session := by
    simpa using congrArg Registers.session regs
  refine ⟨by simp [readOnce, decodeButtons_written _ fwr], ev, ?_, ?_, counts⟩
  · rw [readOnce, decodeButtons_written _ fwr]
    exact evolves.of_registers
  · have noted : ∀ (ok : Bool) (t : State), (noteResult ok t).session = sessionAfterRead ok t.session := by
      intro ok t
      cases h : t.session <;> simp [noteResult, sessionAfterRead, h]
    have backed : ∀ (ok : Bool) (t : State), (backOff ok t).delay =
        if (!ok && t.delay < delayCap) = true then t.delay + 1 else t.delay := by
      intro ok t
      unfold backOff
      split <;> rfl
    simp only [registers, readOnce, decodeButtons_written _ fwr, noteResult_frame, noteResult_fwr,
      noteResult_btn, noteResult_bwr, noteResult_delay, noteResult_cs, noteResult_cfgd, noted,
      noteResult_tlast, noteResult_now, stampRead_frame, stampRead_fwr, stampRead_btn, stampRead_bwr,
      stampRead_delay, stampRead_cs, stampRead_cfgd, stampRead_session,
      stampRead_tlast, stampRead_now,
      backOff_frame, backOff_cs, backOff_cfgd, backOff_session, backOff_now, backOff_fwr,
      backed] at regs ⊢
    simp_all

end Sys2Proof.Machine
end

