-- ==== Sys2Proof/Laws/Init.lean ====
section
/-!
SUPPORT. One lemma per shared operation of INIT.
-/

namespace Sys2Proof.Machine

/-- What a READ inside INIT leaves, in the terms the loop needs: FRAME and BTN written and agreeing, the
select line released, TLAST at NOW. -/
structure AfterRead (s t : State) : Prop where
  fwr : t.fwr = true
  bwr : t.bwr = true
  btn : t.btn = packButtons t.frame[3] t.frame[4]
  cs : t.cs = true
  cfgd : t.cfgd = s.cfgd
  tlast : t.tlast = t.now

theorem readOnce_afterRead (s : State) : AfterRead s (readOnce s).2 := by
  obtain ⟨-, ev, -, regs, -⟩ := readOnce_spec s
  constructor
  · simpa using congrArg Registers.fwr regs
  · simpa using congrArg Registers.bwr regs
  · simpa using congrArg Registers.btn regs
  · simpa using congrArg Registers.cs regs
  · simpa using congrArg Registers.cfgd regs
  · simpa using congrArg Registers.tlast regs

/-- READ's effect on DELAY (R162, R203). -/
theorem readOnce_delay (s : State) : (readOnce s).2.delay =
    if (!valid (readOnce s).2.frame && s.delay < delayCap) = true then s.delay + 1 else s.delay := by
  obtain ⟨ok, ev, -, regs, -⟩ := readOnce_spec s
  simpa [ok] using congrArg Registers.delay regs

/-- READ's effect on SESSION (R28). -/
theorem readOnce_session (s : State) :
    (readOnce s).2.session = sessionAfterRead (readOnce s).1 s.session := by
  obtain ⟨-, ev, -, regs, -⟩ := readOnce_spec s
  simpa using congrArg Registers.session regs

/-- INIT's diagnostic READs (R163), at least one: their events, a gap before each, and what they leave. -/
theorem probe_spec : ∀ (left : Nat) (s : State),
    ∃ ev, Evolves s (probe (left + 1) s) ev (left + 1) ∧ AfterRead s (probe (left + 1) s) ∧
      busRun .idle ev = some .idle ∧
      left + 1 ≤ exchangeCount ev ∧ 9 * (left + 1) ≤ transferCount ev ∧
      exchangeCount ev ≤ 23 * (left + 1) ∧ transferCount ev ≤ 183 * (left + 1) := by
  intro left
  induction left with
  | zero =>
    intro s
    obtain ⟨-, ev, evolves, -, bus, least, leastBytes, most, mostBytes⟩ := readOnce_spec (elapse 0 s)
    refine ⟨ev, (elapse_evolves s).trans evolves,
      { readOnce_afterRead (elapse 0 s) with
        cfgd := (readOnce_afterRead (elapse 0 s)).cfgd.trans (elapse_cfgd 0 s) },
      bus, by omega, by omega, ?_, ?_⟩
    · split at most <;> omega
    · split at mostBytes <;> omega
  | succ left ih =>
    intro s
    obtain ⟨-, ev, evolves, -, bus, least, leastBytes, most, mostBytes⟩ := readOnce_spec (elapse 0 s)
    obtain ⟨ev', evolves', after, bus', least', leastBytes', most', mostBytes'⟩ :=
      ih (readOnce (elapse 0 s)).2
    have cfgd := (readOnce_afterRead (elapse 0 s)).cfgd.trans (elapse_cfgd 0 s)
    have all := ((elapse_evolves s).trans evolves).trans evolves'
    rw [show 1 + 0 + (left + 1) = left + 1 + 1 by omega] at all
    refine ⟨ev ++ ev', all, { after with cfgd := after.cfgd.trans cfgd },
      busRun_idle_append bus bus', ?_, ?_, ?_, ?_⟩
    · simp; omega
    · simp; omega
    · simp; split at most <;> omega
    · simp; split at mostBytes <;> omega

/-- INIT's negotiation loop (R163) with at least one attempt to go: it ends in OK where the frame it
leaves is confirmed, else in ModeNegotiationFailed, with the session of that end. -/
theorem negotiationLoop_spec : ∀ (left : Nat) (s : State),
    ∃ ev, Evolves s (negotiationLoop (left + 1) s).2 ev ∧
      AfterRead s (negotiationLoop (left + 1) s).2 ∧
      busRun .idle ev = some .idle ∧
      4 ≤ exchangeCount ev ∧ 32 ≤ transferCount ev ∧
      exchangeCount ev ≤ 26 * (left + 1) ∧ transferCount ev ≤ 206 * (left + 1) ∧
      (((negotiationLoop (left + 1) s).1 = .ok ∧
          confirmed (negotiationLoop (left + 1) s).2.frame = true ∧
          (negotiationLoop (left + 1) s).2.session = .ready true) ∨
        ((negotiationLoop (left + 1) s).1 = .modeNegotiationFailed ∧
          confirmed (negotiationLoop (left + 1) s).2.frame = false ∧
          (negotiationLoop (left + 1) s).2.session = .uninitialized)) := by
  intro left
  induction left with
  | zero =>
    intro s
    obtain ⟨neg, negRegs⟩ := negotiate_spec s
    have cfgd : (negotiate s).cfgd = s.cfgd := by simpa using congrArg Registers.cfgd negRegs
    have after := readOnce_afterRead (negotiate s)
    obtain ⟨-, ev, evolves, -, bus, least, leastBytes, most, mostBytes⟩ := readOnce_spec (negotiate s)
    have most' : exchangeCount ev ≤ 23 := by split at most <;> omega
    have mostBytes' : transferCount ev ≤ 183 := by split at mostBytes <;> omega
    simp only [negotiationLoop, ne_eq, not_true_eq_false, if_false]
    by_cases h : confirmed (readOnce (negotiate s)).2.frame = true
    · rw [if_pos h]
      refine ⟨_, (neg.trans evolves).of_registers, ⟨after.fwr, after.bwr, after.btn, after.cs,
        after.cfgd.trans cfgd, after.tlast⟩, busRun_idle_append (by simp) bus, ?_, ?_, ?_, ?_,
        Or.inl ⟨rfl, h, rfl⟩⟩ <;> simp <;> omega
    · rw [if_neg h]
      refine ⟨_, (neg.trans evolves).of_registers, ⟨after.fwr, after.bwr, after.btn, after.cs,
        after.cfgd.trans cfgd, after.tlast⟩, busRun_idle_append (by simp) bus, ?_, ?_, ?_, ?_,
        Or.inr ⟨rfl, by simpa using h, rfl⟩⟩ <;> simp <;> omega
  | succ left ih =>
    intro s
    obtain ⟨neg, negRegs⟩ := negotiate_spec s
    have cfgd : (negotiate s).cfgd = s.cfgd := by simpa using congrArg Registers.cfgd negRegs
    have after := readOnce_afterRead (negotiate s)
    obtain ⟨-, ev, evolves, -, bus, least, leastBytes, most, mostBytes⟩ := readOnce_spec (negotiate s)
    have most' : exchangeCount ev ≤ 23 := by split at most <;> omega
    have mostBytes' : transferCount ev ≤ 183 := by split at mostBytes <;> omega
    rw [negotiationLoop]
    by_cases h : confirmed (readOnce (negotiate s)).2.frame = true
    · rw [if_pos h]
      refine ⟨_, (neg.trans evolves).of_registers, ⟨after.fwr, after.bwr, after.btn, after.cs,
        after.cfgd.trans cfgd, after.tlast⟩, busRun_idle_append (by simp) bus, ?_, ?_, ?_, ?_,
        Or.inl ⟨rfl, h, rfl⟩⟩ <;> simp <;> omega
    · rw [if_neg h, if_pos (Nat.succ_ne_zero left)]
      have raised := (neg.trans evolves).of_registers (u := raiseDelay (readOnce (negotiate s)).2)
      obtain ⟨ev', evolves', after', bus', least', leastBytes', lmost, lmostBytes, ends⟩ :=
        ih (raiseDelay (readOnce (negotiate s)).2)
      refine ⟨_, raised.trans evolves', ⟨after'.fwr, after'.bwr, after'.btn, after'.cs, ?_,
        after'.tlast⟩, busRun_idle_append (busRun_idle_append (by simp) bus) bus', ?_, ?_, ?_, ?_, ends⟩
      · rw [after'.cfgd, raiseDelay_cfgd, after.cfgd, cfgd]
      all_goals simp
      all_goals omega

end Sys2Proof.Machine
end

