-- ==== Sys2Proof/Laws/PerInstr.lean ====
section
/-!
SUPPORT. Facts about the operations as syntax, one lemma per constructor.

`EncodeLength`: an encoding is its command byte and as many data bytes as that byte calls for (R77).
-/

namespace Sys2Proof.Laws.EncodeLength

/-- The bytes of a well-formed operation are a command byte and the data bytes its format calls for. -/
def Statement (i : Instr) : Prop :=
  WellFormed i → ∃ c data, encode i = c :: data ∧ data.length = dataCount c

/-- An operand nibble does not change the count of a command whose format takes none or one. -/
theorem dataCount_commandByte (op arg : Nibble) (h : op ≠ 0x2) :
    dataCount (commandByte op arg) = dataCount (commandByte op 0) := by
  revert op arg
  decide +kernel

theorem dataCount_xchg (arg : Nibble) : dataCount (commandByte 0x2 arg) = arg.toNat := by
  revert arg
  decide +kernel

theorem rev (v : Byte) : Statement (.rev v) := fun _ => ⟨_, [v], rfl, by rw [List.length_singleton]; decide⟩

theorem xchg (cmd : List Byte) : Statement (.xchg cmd) := fun fits => by
  have short : cmd.length ≤ 15 := by simpa [WellFormed, Instr.fits] using fits
  refine ⟨_, cmd, rfl, ?_⟩
  rw [dataCount_xchg, BitVec.toNat_ofNat]
  omega

theorem xent : Statement .xent := fun _ => ⟨_, [], rfl, by decide⟩
theorem xset : Statement .xset := fun _ => ⟨_, [], rfl, by decide⟩
theorem xext : Statement .xext := fun _ => ⟨_, [], rfl, by decide⟩
theorem xrd : Statement .xrd := fun _ => ⟨_, [], rfl, by decide⟩
theorem dec : Statement .dec := fun _ => ⟨_, [], rfl, by decide⟩
theorem btn (k : Nibble) : Statement (.btn k) := fun _ =>
  ⟨_, [], rfl, by rw [dataCount_commandByte _ _ (by decide)]; decide⟩
theorem axis (a : Nibble) : Statement (.axis a) := fun _ =>
  ⟨_, [], rfl, by rw [dataCount_commandByte _ _ (by decide)]; decide⟩
theorem rdreg (r : Nibble) : Statement (.rdreg r) := fun _ =>
  ⟨_, [], rfl, by rw [dataCount_commandByte _ _ (by decide)]; decide⟩
theorem wrreg (r : Nibble) (v : Byte) : Statement (.wrreg r v) := fun _ =>
  ⟨_, [v], rfl, by rw [dataCount_commandByte _ _ (by decide), List.length_singleton]; decide⟩
theorem cfg : Statement .cfg := fun _ => ⟨_, [], rfl, by decide⟩
theorem neg : Statement .neg := fun _ => ⟨_, [], rfl, by decide⟩
theorem read : Statement .read := fun _ => ⟨_, [], rfl, by decide⟩
theorem init : Statement .init := fun _ => ⟨_, [], rfl, by decide⟩

end Sys2Proof.Laws.EncodeLength
end

