-- ==== Sys2Proof/Tests/Slice0.lean ====
section
/-!
SUPPORT. Our own tests.  Expected results are the spec's: a comment names the vector V<n>, program P<n>,
entry E<n> or rule they are taken from.  Last, a witness for every obligation with hypotheses.
-/

namespace Sys2Proof.Tests

open Sys2Proof.Machine

/-! ### Helpers -/

/-- The state an operation leaves (every operation answers a next state). -/
def after (i : Instr) (s : State) : State :=
  match exec i s with
  | .next t => t
  | .fault _ => s
  | .refused _ => s

/-- Reset, then configured: the start state of E315. -/
def configured : State := { State.reset with cfgd := true }

/-- Peer `F73`'s raw bytes; with another mode byte, peers `F41` (0x82), `F79` (0x9E), mode 0x70 (0x0E). -/
def raw (mode : Byte) : List Byte := [0xFF, mode, 0x5A, 0x7F, 0xFF, 0x01, 0xFE, 0x41, 0x81]

/-- What a peer answers to the 23 transfers of NEG. -/
def rawNeg (mode : Byte) : List Byte := (raw mode).take 5 ++ raw mode ++ raw mode

/-- The reference clock's extra time in an exchange of `n` bytes at 500 kHz (R247). -/
def ticksOf (n : Nat) : List Nat := [0, 0, 0, 0] ++ List.replicate n 16 ++ [0, 0]

/-- The same for NEG. -/
def ticksOfNeg : List Nat := ticksOf 5 ++ ticksOf 9 ++ ticksOf 9

/-- The frame of peer `F73`. -/
def frame73 : Vector Byte 9 := #v[0xFF, 0x73, 0x5A, 0xFE, 0xFF, 0x80, 0x7F, 0x82, 0x81]

/-- FRAME and BTN written, as after program P1. -/
def written : State := { configured with frame := frame73, fwr := true, btn := 0xFFFE, bwr := true }

/-- In session, TLAST = NOW = 838, as after P2's INIT (E325). -/
def inReady : State := { written with session := .ready true, tlast := 838, now := 838 }

/-- The raw bytes sent, in order. -/
def sentBytes (ev : List Event) : List Byte :=
  ev.filterMap fun e => match e with
    | .xfer o _ => some o
    | .line _ _ => none
    | .delay _ => none
    | .configure _ => none
    | .setFrame _ _ => none
    | .setClock _ => none

/-! ### Well-formedness -/

/-- No command carries 16 data bytes for XCHG: `n` is four bits (R77). -/
theorem test_illFormed_xchg_of_sixteen : ¬ WellFormed (.xchg (List.replicate 16 0)) := by decide

theorem test_wellFormed_xchg_of_fifteen : WellFormed (.xchg (List.replicate 15 0)) := by decide

/-! ### Decoding: words written out from R77's formats and R78's map -/

theorem test_decode_rev : decode [0b00010000, 0b01000011] = .command (.rev 0x43) [] := by decide
theorem test_decode_xchg : decode [0b00100010, 0x01, 0x42] = .command (.xchg [0x01, 0x42]) [] := by decide
theorem test_decode_xchg_of_fifteen : decode (0b00101111 :: List.replicate 15 0xA5) =
    .command (.xchg (List.replicate 15 0xA5)) [] := by decide
theorem test_decode_xent : decode [0b00110000] = .command .xent [] := by decide
theorem test_decode_xset : decode [0b01000000] = .command .xset [] := by decide
theorem test_decode_xext : decode [0b01010000] = .command .xext [] := by decide
theorem test_decode_xrd : decode [0b01100000] = .command .xrd [] := by decide
theorem test_decode_dec : decode [0b01110000] = .command .dec [] := by decide
theorem test_decode_btn : decode [0b10001111] = .command (.btn 15) [] := by decide
theorem test_decode_axis : decode [0b10010111] = .command (.axis 7) [] := by decide
theorem test_decode_rdreg : decode [0b10101011] = .command (.rdreg 11) [] := by decide
theorem test_decode_wrreg : decode [0b10110001, 0b00001010] = .command (.wrreg 1 10) [] := by decide
theorem test_decode_cfg : decode [0b11000000] = .command .cfg [] := by decide
theorem test_decode_neg : decode [0b11010000] = .command .neg [] := by decide
theorem test_decode_read : decode [0b11100000] = .command .read [] := by decide
theorem test_decode_init : decode [0b11110000, 0xE0] = .command .init [0xE0] := by decide

/-- V70, V71: `00`, `05`, `0F`, `31`, `6F`, `71`, `C8`, `D1`, `E1`, `F1`, `11 00`. -/
theorem test_decode_reserved :
    [[0x00], [0x05], [0x0F], [0x31], [0x6F], [0x71], [0xC8], [0xD1], [0xE1], [0xF1], [0x11, 0x00]].map
      (fun bytes => decode (bytes ++ [0xE0])) = List.replicate 11 (.reservedOp [0xE0]) := by decide

/-- A command waits for all its data bytes (R77). -/
theorem test_decode_waits : decode [0b00100010, 0x01] = .waiting := by decide

/-- The match and mask columns of spec/opcode_table.json name one row for each command byte but op
select 0 and, with a non-zero `arg`, REV and the H0 operations. -/
theorem test_table_rows_disjoint :
    ∀ c : Byte, (opcodeTable.filter (OpcodeRow.covers · c)).length ≤ 1 := by decide +kernel

/-- E341's listing: `WRREG 1, 4` (V26), `INIT`. -/
theorem test_listing : listing (.wrreg 1 4) = "WRREG 1, 4" ∧ listing .init = "INIT" := by
  decide +kernel

/-- Pseudo-instructions (R84): SELECT, START, LX, MODE and GETDLY are `80`, `83`, `97`, `A5`, `A1` (P1, P3). -/
theorem test_pseudo : [pseudoSelect, pseudoStart, pseudoLx, pseudoMode, pseudoGetdly].map encode =
    [[0x80], [0x83], [0x97], [0xA5], [0xA1]] := by decide

theorem test_tableWord :
    decodeTableWord 16 0x4310 = some (.rev 0x43) ∧ decodeTableWord 8 0x20 = some (.xchg []) ∧
    decodeTableWord 16 0x0AB1 = some (.wrreg 1 10) ∧ decodeTableWord 8 0x10 = some (.rev 0) ∧
    decodeTableWord 8 0x05 = none := by decide

/-- The next step runs the placed instruction, and takes its bytes alone. -/
theorem test_withFetchWord :
    step (State.reset.withFetchWord 16 0x4310) =
      exec (.rev 0x43) (takeCommand [] (State.reset.withFetchWord 16 0x4310)) := by rfl

/-! ### Operations -/

/-- E310's example `REV 0x43` and V4. -/
theorem test_rev : (after (.rev 0x43) State.reset).hostOut = [0x00, 0xC2] ∧
    (after (.rev 0x1E) State.reset).hostOut = [0x00, 0x78] := by decide

/-- V24: trace and result. -/
theorem test_xchg_v24 : (after (.xchg [0x01, 0x42]) { configured with answers := raw 0xCE }).trace =
    [.line .dataOut true, .line .clock true, .line .select false, .delay 5,
      .xfer 0x80 0xFF, .xfer 0x42 0xCE, .line .select true, .delay 1] ∧
    (after (.xchg [0x01, 0x42]) { configured with answers := raw 0xCE }).hostOut = [0x00, 0xFF, 0x73] := by
  decide

/-- V25: the outputs of the longest exchange. -/
theorem test_xchg_v25 : sentBytes (after (.xchg [1, 2, 3, 4, 5, 6, 7, 8, 9])
      { configured with answers := raw 0xCE }).trace =
    [0x80, 0x40, 0xC0, 0x20, 0xA0, 0x60, 0xE0, 0x10, 0x90] := by decide

/-- V20: the trace and the result; FRAME is not written. -/
theorem test_xent_v20 :
    (after .xent { configured with answers := raw 0xCE }).trace =
      [.line .dataOut true, .line .clock true, .line .select false, .delay 5, .xfer 0x80 0xFF,
        .xfer 0xC2 0xCE, .xfer 0x00 0x5A, .xfer 0x80 0x7F, .xfer 0x00 0xFF, .line .select true, .delay 1] ∧
    (after .xent { configured with answers := raw 0xCE }).hostOut = [0x00, 0xFF, 0x73, 0x5A, 0xFE, 0xFF] ∧
    (after .xent { configured with answers := raw 0xCE }).fwr = false := by decide

/-- V22. -/
theorem test_xset_v22 :
    sentBytes (after .xset { configured with answers := raw 0xCE }).trace =
      [0x80, 0x22, 0x00, 0x80, 0xC0, 0x00, 0x00, 0x00, 0x00] ∧
    (after .xset { configured with answers := raw 0xCE }).hostOut =
      [0x00, 0xFF, 0x73, 0x5A, 0xFE, 0xFF, 0x80, 0x7F, 0x82, 0x81] := by decide

/-- V23. -/
theorem test_xext_v23 : sentBytes (after .xext { configured with answers := raw 0xCE }).trace =
    [0x80, 0xC2, 0x00, 0x00, 0x5A, 0x5A, 0x5A, 0x5A, 0x5A] := by decide

/-- V21: FRAME, and the duration 150 on the reference clock. -/
theorem test_xrd_v21 :
    (after .xrd { configured with answers := raw 0xCE, ticks := ticksOf 9 }).frame = frame73 ∧
    (after .xrd { configured with answers := raw 0xCE, ticks := ticksOf 9 }).fwr = true ∧
    (after .xrd { configured with answers := raw 0xCE, ticks := ticksOf 9 }).bwr = false ∧
    (after .xrd { configured with answers := raw 0xCE, ticks := ticksOf 9 }).now = 150 := by decide

/-- V28: NotConfigured, and BadLength before it. -/
theorem test_refusals_v28 : (after .xrd State.reset).hostOut = [0x0E] ∧
    (after (.xchg []) State.reset).hostOut = [0x09] ∧
    (after (.xchg (List.replicate 10 0)) configured).hostOut = [0x09] := by decide

/-- V32: byte 4 is the high half. -/
theorem test_dec_v32 : (after .dec { written with frame := #v[0xFF, 0x73, 0x5A, 0xFF, 0x7F, 0, 0, 0, 0] }).btn
    = 0x7FFF := by decide

/-- V31. -/
theorem test_dec_v31 : (after .dec { written with btn := 0 }).btn = 0xFFFE := by decide

/-- V30. -/
theorem test_btn_v30 : (after (.btn 0) written).hostOut = [0x00, 0x01] ∧
    (after (.btn 3) written).hostOut = [0x00, 0x00] := by decide

/-- V34, V35. -/
theorem test_axis_v34 : (after (.axis 7) written).hostOut = [0x00, 0x82] ∧
    (after (.axis 5) written).hostOut = [0x00, 0x80] := by decide

/-- V37. -/
theorem test_axis_v37 : [4, 9, 0, 15].map (fun a => (after (.axis a) written).hostOut) =
    List.replicate 4 [0x0A] := by decide

/-- V61, V62: STATUS, BTNL, BTNH, FRAME[1], FRAME[7]. -/
theorem test_rdreg_v62 : (after (.rdreg 0) written).hostOut = [0x00, 0x0F] ∧
    [0, 2, 3, 5, 11].map (fun r => (after (.rdreg r) inReady).hostOut) =
      [[0x00, 0x7F], [0x00, 0xFE], [0x00, 0xFF], [0x00, 0x73], [0x00, 0x82]] := by decide

/-- V60, V69. -/
theorem test_rdreg_v60 : (after (.rdreg 1) State.reset).hostOut = [0x00, 0x01] ∧
    (after (.rdreg 13) State.reset).hostOut = [0x0A] := by decide

/-- V66, V67. -/
theorem test_wrreg_v66 : (after (.wrreg 1 10) State.reset).delay = 10 ∧
    [0x00, 0x0B, 0xFF].map (fun v => (after (.wrreg 1 v) State.reset).hostOut) =
      List.replicate 3 [0x0B] := by decide

/-- V68. -/
theorem test_wrreg_v68 : (after (.wrreg 0 0) State.reset).hostOut = [0x0A] ∧
    (after (.wrreg 13 5) State.reset).hostOut = [0x0A] := by decide

/-- V29. -/
theorem test_cfg_v29 : (after .cfg State.reset).trace =
    [.configure State.reset.params.pins, .setFrame 8 3, .setClock 500000, .line .select true] ∧
    (after .cfg State.reset).cfgd = true := by decide

/-- R247: NEG takes 383 + 3 DELAY; its trace has 41 events (V42, V44). -/
theorem test_neg : (after .neg { configured with answers := rawNeg 0xCE, ticks := ticksOfNeg }).now = 386 ∧
    (after .neg { configured with answers := rawNeg 0xCE, ticks := ticksOfNeg }).trace.length = 41 := by
  decide +kernel

/-- V42: success at the second attempt. -/
theorem test_read_v42 :
    let t := after .read { inReady with
      tlast := 0, now := 100, answers := raw 0x82 ++ rawNeg 0xCE ++ raw 0xCE
      ticks := ticksOf 9 ++ ticksOfNeg ++ [0] ++ ticksOf 9 }
    t.hostOut = [0x00] ∧ t.delay = 1 ∧ t.tlast = 787 ∧ t.trace.length = 72 := by decide +kernel

/-- V44: a miss. -/
theorem test_read_v44 :
    let t := after .read { inReady with
      tlast := 0, now := 100
      answers := (List.replicate 5 (raw 0x82 ++ rawNeg 0x82)).flatten
      ticks := (List.replicate 5 (ticksOf 9 ++ ticksOfNeg ++ [0])).flatten }
    t.hostOut = [0x03] ∧ t.delay = 2 ∧ t.tlast = 2785 ∧ t.session = .ready false ∧ t.btn = 0xFFFE ∧
      t.trace.length = 285 := by decide +kernel

/-- P2: the happy path. -/
theorem test_init_p2 :
    let t := after .init { State.reset with
      answers := raw 0xCE ++ raw 0xCE ++ rawNeg 0xCE ++ raw 0xCE
      ticks := [0, 0, 0, 0, 0, 0] ++ ticksOf 9 ++ [0, 0] ++ ticksOf 9 ++ ticksOfNeg ++ ticksOf 9 }
    t.hostOut = [0x00] ∧ t.session = .ready true ∧ t.tlast = 838 ∧ t.delay = 1 ∧ t.btn = 0xFFFE ∧
      t.trace.length = 92 := by decide +kernel

/-- V49: mode 0x70 is valid and not alive. -/
theorem test_init_v49 :
    let t := after .init { State.reset with
      answers := raw 0x0E ++ raw 0x0E
      ticks := [0, 0, 0, 0, 0, 0] ++ ticksOf 9 ++ [0, 0] ++ ticksOf 9 }
    t.hostOut = [0x01] ∧ t.session = .uninitialized ∧ t.tlast = 302 ∧ t.delay = 1 := by decide +kernel

/-- R102's table: the entries of row 0 and of the last column. -/
theorem test_codec_table : codecTable.take 16 =
      [0x00, 0x80, 0x40, 0xC0, 0x20, 0xA0, 0x60, 0xE0, 0x10, 0x90, 0x50, 0xD0, 0x30, 0xB0, 0x70, 0xF0] ∧
    codecTable[255]? = some 0xFF := by decide

/-! ### Witnesses: for every obligation with hypotheses, a state and operands that meet them -/

theorem witness_EveryOperationReturnsOneResult :
    exec (.axis 7) written = .next (complete [0x82] written) := by rfl

theorem witness_RefusedOperationsChangeNothing :
    exec (.axis 4) written = .next (endWith .badIndex written) ∧ isRefusal .badIndex = true ∧
      (endWith .badIndex written).hostOut = written.hostOut ++ [codeByte .badIndex] := by
  exact ⟨rfl, rfl, rfl⟩

/-- At both ends of the length. -/
theorem witness_XchgRunsOneExchange :
    (1 ≤ [0x5A#8].length ∧ [0x5A#8].length ≤ 9 ∧ configured.cfgd = true) ∧
    (1 ≤ (List.replicate 9 0x5A#8).length ∧ (List.replicate 9 0x5A#8).length ≤ 9) := by decide

theorem witness_OperationsExchangeTheFourLiterals : configured.cfgd = true := by rfl
theorem witness_ConfigurationLiteralsAreExchanged : configured.cfgd = true := by rfl
theorem witness_XrdStoresTheResponseFrame : configured.cfgd = true := by rfl

theorem witness_ExchangesNeedConfiguration :
    State.reset.cfgd = false ∧ NegAvailable State.reset ∧ 1 ≤ [0x5A#8].length ∧ [0x5A#8].length ≤ 9 ∧
      (List.replicate 9 0x5A#8).length ≤ 9 := by decide

theorem witness_XchgLengthIsTestedFirst :
    ([] : List Byte).length = 0 ∧ 9 < (List.replicate 10 0x5A#8).length := by decide

theorem witness_CfgConfiguresAndParksSelect :
    State.reset.params.pinsUsable = true ∧
    ({ State.reset with params := { Config.defaults with pinsUsable := false } } : State).params.pinsUsable
      = false := by decide

/-- Both ends of the legal values, the values next to them, and a register other than 1. -/
theorem witness_WrregWritesDelayInRange :
    (1 ≤ (1#8).toNat ∧ (1#8).toNat ≤ 10) ∧ (1 ≤ (10#8).toNat ∧ (10#8).toNat ≤ 10) ∧
    ((0 : Nibble) ≠ 1 ∧ (2 : Nibble) ≠ 1) ∧ (0#8).toNat = 0 ∧ 10 < (11#8).toNat := by decide

theorem witness_RdregAnswersTheNamedRegister :
    written.fwr = true ∧ written.bwr = true ∧ 13 ≤ (13 : Nibble).toNat ∧ 13 ≤ (15 : Nibble).toNat := by decide

theorem witness_ModePredicatesAndTheirOverlap :
    confirmedMode 0x73 = true ∧ validMode 0x79 = true ∧ aliveMode 0x79 = true ∧ aliveMode 0x41 = true ∧
      validMode 0x41 = false := by decide

theorem witness_DecLatchesTheButtonBytes : written.fwr = true := by rfl
theorem witness_DecOfAnUnwrittenFrameLeavesBtnUnwritten : State.reset.fwr = false := by rfl

theorem witness_BtnAnswersActiveLow :
    written.bwr = true ∧ written.btn &&& 0x0001 = 0 ∧ written.btn &&& 0x0008 ≠ 0 := by decide

theorem witness_AxisAnswersTheRawByte :
    written.fwr = true ∧ (4 : Nibble).toNat < 5 ∧ 8 < (9 : Nibble).toNat := by decide

theorem witness_UnwrittenReadsAnswerFreeValues :
    State.reset.fwr = false ∧ State.reset.bwr = false ∧
    (5 ≤ (5 : Nibble).toNat ∧ (5 : Nibble).toNat ≤ 8) ∧ (5 ≤ (8 : Nibble).toNat ∧ (8 : Nibble).toNat ≤ 8) ∧
    (4 ≤ (4 : Nibble).toNat ∧ (4 : Nibble).toNat ≤ 12) ∧
    (4 ≤ (12 : Nibble).toNat ∧ (12 : Nibble).toNat ≤ 12) := by decide

/-- No session where the model's parameter has NEG need one (log 24). -/
def negBarred : State := { configured with params := { Config.defaults with negNeedsSession := true } }

/-- R205: NEG needs CFGD alone, as V26 has it; under the parameter SESSION too, in R208's order. -/
theorem test_neg_refusals : (after .neg configured).hostOut = [0x00] ∧
    (after .neg { configured with cfgd := false }).hostOut = [0x0E] ∧
    (after .neg negBarred).hostOut = [0x0C] ∧
    (after .neg { negBarred with cfgd := false }).hostOut = [0x0C] := by decide +kernel

/-- After an INIT of a peer that answers 0x70, which fails (V49). -/
def afterV49 (p : Params) : State :=
  after .init { State.resetWith p with answers := raw 0x0E ++ raw 0x0E, ticks := List.replicate 50 0 }

/-- From a run: after the INIT that failed READ is refused (D18) and NEG is not (R161, R205). -/
theorem test_layer_two_after_v49 :
    let t := afterV49 Config.defaults
    t.hostOut = [0x01] ∧ (after .neg t).hostOut = [0x01, 0x00] ∧ (after .read t).hostOut = [0x01, 0x0C] := by
  decide +kernel

/-- R210 from a run, under the parameter: after the INIT that failed NEG is refused as READ is. -/
theorem test_only_init_after_v49 :
    let t := afterV49 { Config.defaults with negNeedsSession := true }
    t.hostOut = [0x01] ∧ (after .neg t).hostOut = [0x01, 0x0C] ∧ (after .read t).hostOut = [0x01, 0x0C] := by
  decide +kernel

/-- Without a session by default, and in one under the parameter. -/
theorem witness_NegRunsTheThreeLiterals :
    configured.cfgd = true ∧ configured.session = .uninitialized ∧ NegAvailable configured ∧
    NegAvailable { negBarred with session := .ready true } := by decide

/-- The parameter set without a session; and a failed INIT of a run, with what it leaves. -/
theorem witness_LayerTwoAfterAFailedInit :
    let s := { State.reset with answers := raw 0x0E ++ raw 0x0E, ticks := List.replicate 50 0 }
    (negBarred.params.negNeedsSession = true ∧ negBarred.session = .uninitialized) ∧
    s.params.pinsUsable = true ∧ exec .init s = .next (after .init s) ∧
      (after .init s).session = .uninitialized ∧ (after .init s).params.negNeedsSession = false ∧
      (afterV49 negBarred.params).session = .uninitialized ∧
      (afterV49 negBarred.params).params.negNeedsSession = true := by
  exact ⟨by decide, rfl, rfl, by decide +kernel, by decide +kernel, by decide +kernel, by decide +kernel⟩

theorem witness_NegIsXentXsetXext : NegAvailable configured ∧ NegAvailable State.reset := by decide

theorem witness_NegIgnoresTheResponses :
    configured.cfgd = true ∧ NegAvailable configured ∧ (rawNeg 0xCE).length = 23 ∧ (rawNeg 0x82).length = 23 ∧
    exec .neg { configured with answers := rawNeg 0xCE ++ [0x00] } =
      .next (after .neg { configured with answers := rawNeg 0xCE ++ [0x00] }) ∧
    exec .neg { configured with answers := rawNeg 0x82 ++ [0x00] } =
      .next (after .neg { configured with answers := rawNeg 0x82 ++ [0x00] }) := by
  exact ⟨rfl, by decide, rfl, rfl, rfl, rfl⟩

/-- In session, with a peer that answers `mode` to `n` attempts and then `0xCE`. -/
def afterFailures (n : Nat) (mode : Byte) : State :=
  { inReady with answers := (List.replicate n (raw mode ++ rawNeg mode)).flatten ++ raw 0xCE }

/-- The first attempt, and the last. -/
theorem witness_ReadSucceedsAtTheFirstValidFrame :
    inReady.session ≠ .uninitialized ∧ inReady.cfgd = true ∧
    validMode (frameFrom (afterFailures 0 0x82) (attemptStart (afterFailures 0 0x82) 0))[1] = true ∧
    (∀ j < 4, validMode (frameFrom (afterFailures 4 0x82) (attemptStart (afterFailures 4 0x82) j))[1]
      = false) ∧
    validMode (frameFrom (afterFailures 4 0x82) (attemptStart (afterFailures 4 0x82) 4))[1] = true := by
  decide +kernel

theorem witness_ReadMissesAfterFiveInvalidFrames :
    (afterFailures 5 0x82).session ≠ .uninitialized ∧ (afterFailures 5 0x82).cfgd = true ∧
    ∀ j < 5, validMode (frameFrom (afterFailures 5 0x82) (attemptStart (afterFailures 5 0x82) j))[1]
      = false := by decide +kernel

theorem witness_ReadWithoutASessionIsRefused :
    State.reset.session = .uninitialized ∧
    ({ inReady with cfgd := false } : State).session ≠ .uninitialized ∧
    ({ inReady with cfgd := false } : State).cfgd = false := by decide

theorem witness_ReadMakesABoundedNumberOfExchanges :
    inReady.session ≠ .uninitialized ∧ inReady.cfgd = true ∧
    exec .read (afterFailures 0 0x82) = .next (after .read (afterFailures 0 0x82)) := by
  exact ⟨by decide, rfl, rfl⟩

theorem witness_ReadIsItsLayerOneExpansion :
    inReady.session ≠ .uninitialized ∧ inReady.cfgd = true := by decide

theorem witness_InitOnUnusablePinsIsRefused :
    ({ State.reset with params := { Config.defaults with pinsUsable := false } } : State).params.pinsUsable
      = false := by rfl

theorem witness_InitEndsInOneOfThreeWays : State.reset.params.pinsUsable = true := by rfl

theorem answerAt_replicate (n k : Nat) (b : Byte) (s : State) (h : k < n) :
    answerAt { s with answers := List.replicate n b } k = b := by
  simp [answerAt, h]

theorem tickAt_replicate {n k extra : Nat} {s : State} (h : s.ticks = List.replicate n extra)
    (lt : k < n) : tickAt s k = extra := by
  simp [tickAt, h, lt]

theorem witness_InitOfADeadPeerIsNoResponse :
    State.reset.params.pinsUsable = true ∧
    ∀ k < 366, aliveMode (reverse8 (answerAt { State.reset with answers := List.replicate 366 0xFF } k))
      = false :=
  ⟨rfl, fun k h => by rw [answerAt_replicate 366 k _ _ h]; decide⟩

theorem witness_InitOfAConfirmingPeerSucceeds :
    State.reset.params.pinsUsable = true ∧
    ∀ k < 119, answerAt { State.reset with answers := List.replicate 119 0xCE } k = 0xCE :=
  ⟨rfl, fun k h => answerAt_replicate 119 k _ _ h⟩

theorem witness_InitOfAPeerThatNeverConfirmsFails :
    State.reset.params.pinsUsable = true ∧
    ∀ k < 669, answerAt { State.reset with answers := List.replicate 669 0x9E } k = 0x9E :=
  ⟨rfl, fun k h => answerAt_replicate 669 k _ _ h⟩

theorem witness_InitMakesABoundedNumberOfExchanges : State.reset.params.pinsUsable = true := by rfl
/-- Every event and gap lasts 1501 microseconds more than its least; peer `F41`'s mode byte throughout. -/
def staleInvalid : State :=
  { State.reset with answers := List.replicate 2632 0x82, ticks := List.replicate 4708 1501 }

theorem witness_InitOfAStaleInvalidPeerReachesTheBounds :
    staleInvalid.params.pinsUsable = true ∧ staleInvalid.params.negAfterLastAttempt = true ∧
    staleInvalid.tlast ≤ staleInvalid.now ∧
    (∀ k < 2632, answerAt staleInvalid k = 0x82) ∧
    ∀ k < 4708, staleInvalid.params.staleUs < tickAt staleInvalid k :=
  ⟨rfl, rfl, Nat.le_refl 0,
    fun k h => answerAt_replicate 2632 k 0x82 { State.reset with ticks := List.replicate 4708 1501 } h,
    fun k h => tickAt_replicate (extra := 1501) (s := staleInvalid) rfl h ▸ by decide⟩

theorem witness_InitIsItsExpansion : State.reset.params.pinsUsable = true := by rfl

theorem witness_StepRunsTheDecodedCommand :
    decode ({ configured with hostIn := [0x60, 0x70] } : State).hostIn = .command .xrd [0x70] := by decide

theorem witness_StepRefusesReservedAndWaitsForBytes :
    decode ({ configured with hostIn := [0x31, 0x70] } : State).hostIn = .reservedOp [0x70] ∧
    ({ configured with hostIn := [0x22, 0x01] } : State).hostIn = 0x22 :: [0x01] ∧
    [0x01#8].length < dataCount 0x22 := by decide

theorem witness_NothingHappensWithoutACommand : State.reset.hostIn = [] := by rfl

/-- The shortest and the longest operation. -/
theorem witness_DecodeInvertsEncode :
    WellFormed .xrd ∧ WellFormed (.xchg []) ∧ WellFormed (.xchg (List.replicate 15 0xFF)) := by decide

theorem witness_EncodeInvertsDecode : decode [0xB1, 0x04, 0xE0] = .command (.wrreg 1 4) [0xE0] := by decide

theorem witness_ReservedCommandsAreExactlyThese :
    ([] : List Byte).length = dataCount 0x05 ∧ [0x00#8].length = dataCount 0x11 := by decide

theorem witness_DecodeFollowsTheOpcodeTable : decode (0x97 :: [0xE0]) = .command (.axis 7) [0xE0] := by decide

/-- In session, between operations, with a READ to run. -/
def aboutToRead : State := { afterFailures 5 0x82 with hostIn := [0xE0] }

theorem witness_EveryStepKeepsTheInvariant :
    BetweenOperations aboutToRead ∧
      step aboutToRead = .next (after .read (takeCommand [] aboutToRead)) := by
  exact ⟨by decide +kernel, rfl⟩

theorem witness_EveryOperationIsItsEvents :
    exec .xrd { configured with answers := raw 0xCE } =
      .next (after .xrd { configured with answers := raw 0xCE }) := by rfl

theorem witness_StepsOnlyExtendTheRecord :
    step aboutToRead = .next (after .read (takeCommand [] aboutToRead)) := by rfl

theorem witness_EveryStepKeepsTheBusDiscipline :
    step aboutToRead = .next (after .read (takeCommand [] aboutToRead)) := by rfl

/-- Every clause: XRD changes FRAME and FWR, DEC changes BTN, CFG changes CS and CFGD, and a READ that
misses changes DELAY, SESSION and TLAST. -/
theorem witness_RegistersChangeOnlyByTheirWriters :
    (after .xrd { configured with answers := raw 0xCE }).fwr ≠ configured.fwr ∧
    (after .dec { written with btn := 0 }).btn ≠ 0 ∧
    (after .cfg { State.reset with cs := false }).cs ≠ false ∧
    (after .cfg State.reset).cfgd ≠ State.reset.cfgd ∧
    (after .read (afterFailures 5 0x82)).delay ≠ (afterFailures 5 0x82).delay ∧
    (after .read (afterFailures 5 0x82)).session ≠ (afterFailures 5 0x82).session ∧
    (after .read { afterFailures 5 0x82 with ticks := List.replicate 300 0 }).tlast ≠ (afterFailures 5 0x82).tlast := by
  decide +kernel

theorem witness_DelayFallsOnlyByInitOrWrreg :
    exec .read (afterFailures 5 0x82) = .next (after .read (afterFailures 5 0x82)) ∧
    Instr.read ≠ .init ∧ ∀ r v, Instr.read ≠ .wrreg r v := by
  exact ⟨rfl, by decide, fun _ _ h => by cases h⟩

theorem witness_SessionMovesOnlyByTheTable :
    exec .read (afterFailures 5 0x82) = .next (after .read (afterFailures 5 0x82)) ∧
    (after .read (afterFailures 5 0x82)).session ≠ (afterFailures 5 0x82).session := by
  exact ⟨rfl, by decide +kernel⟩

theorem witness_ExchangeTimeOnTheReferenceClock :
    (1 ≤ [0x01#8, 0x42#8].length ∧ [0x01#8, 0x42#8].length ≤ 9 ∧ configured.cfgd = true) ∧
    (∀ k < 8, tickAt { configured with ticks := ticksOf 2 } k =
      if 4 ≤ k ∧ k < 6 then byteUs configured.params else 0) ∧
    exec (.xchg [0x01, 0x42]) { configured with ticks := ticksOf 2 } =
      .next (after (.xchg [0x01, 0x42]) { configured with ticks := ticksOf 2 }) := by
  exact ⟨by decide, by decide +kernel, rfl⟩

theorem witness_SmallStepsMakeOneExchange : 7 ≤ [0x01#8, 0x42#8].length + 5 := by decide

theorem witness_BitTransferSendsProtocolBitZeroFirst :
    Config.defaults.spiMode = 3 ∧ Config.defaults.nativeMsbFirst = true := by decide

end Sys2Proof.Tests
end

section
/-!
PROOFS. The four literal exchanges (R72): what XENT, XSET, XEXT and XRD answer once CFG has run.
-/

namespace Sys2Proof.Machine

/-! ### Which exchange each operation runs (R112 to R115) -/

theorem exec_xent (s : State) : exec .xent s = .next (answerExchange enterConfiguration s) := rfl

theorem exec_xset (s : State) : exec .xset s = .next (answerExchange setAnalogMode s) := rfl

theorem exec_xext (s : State) : exec .xext s = .next (answerExchange exitConfiguration s) := rfl

/-- After CFG an exchange that stores nothing is accepted (R110). -/
theorem answerExchange_configured (cmd : List Byte) {s : State} (configured : s.cfgd = true) :
    answerExchange cmd s = complete (exchange cmd s).1 (exchange cmd s).2 :=
  if_pos configured

/-- After CFG the read-data exchange is accepted, and its response is stored (R115). -/
theorem exec_xrd_configured {s : State} (configured : s.cfgd = true) :
    exec .xrd s = .next (complete (exchange readData s).1
      (storeFrame (exchange readData s).1 (exchange readData s).2)) :=
  congrArg Host.Outcome.next (if_pos configured)

/-! ### The obligation -/

/-- Settles O8: each operation is the accepted exchange of its named literal, and the literal store gives
that name the bytes of R72. -/
theorem operationsExchangeTheFourLiterals : Obligations.OperationsExchangeTheFourLiterals := by
  unfold Obligations.OperationsExchangeTheFourLiterals
  intro s configured
  refine ⟨?xent, ?xset, ?xext, ?xrd⟩
  case xent => rw [exec_xent, answerExchange_configured _ configured, enterConfiguration]
  case xset => rw [exec_xset, answerExchange_configured _ configured, setAnalogMode]
  case xext => rw [exec_xext, answerExchange_configured _ configured, exitConfiguration]
  case xrd => rw [exec_xrd_configured configured, readData]

end Sys2Proof.Machine
end

section
/-!
PROOFS. The bit-order codec (R101): the reversal undoes itself, hence is a bijection on bytes.
-/

namespace Sys2Proof.Machine

/-- Bit `i` goes to position `7 - i` and from there back to `i`. -/
theorem reverse8_involutive : Function.Involutive reverse8 := by
  intro v
  apply BitVec.eq_of_getLsbD_eq
  intro i inRange
  calc (reverse8 (reverse8 v)).getLsbD i
      = (reverse8 v).getLsbD (7 - i) := reverse8_bit (reverse8 v) i inRange
    _ = v.getLsbD (7 - (7 - i)) := reverse8_bit v (7 - i) (by omega)
    _ = v.getLsbD i := by rw [Nat.sub_sub_self (Nat.le_of_lt_succ inRange)]

/-- Settles O1: an involution is a bijection, being its own inverse. -/
theorem reverseEightIsItsOwnInverse : Obligations.ReverseEightIsItsOwnInverse := by
  unfold Obligations.ReverseEightIsItsOwnInverse
  exact ⟨reverse8_involutive, reverse8_involutive.bijective⟩

end Sys2Proof.Machine
end

section
/-!
PROOFS. The host port with no command in it (R207): the decoder finds nothing, and the block waits.
-/

namespace Sys2Proof.Machine

/-- No byte is no command (R77). -/
theorem decode_nil : decode [] = .waiting := rfl

/-- Where the decoder waits for bytes, whether none or too few have come, so does the block (log 7). -/
theorem step_eq_self_of_decode_waiting {s : State} (waiting : decode s.hostIn = .waiting) :
    step s = .next s := by
  rw [step, fetch, waiting]

/-- Settles O40: with no byte from HOST the decoder waits, so the step is the identity. -/
theorem nothingHappensWithoutACommand : Obligations.NothingHappensWithoutACommand := by
  unfold Obligations.NothingHappensWithoutACommand
  intro s noByte
  have waiting : decode s.hostIn = .waiting := by rw [noByte, decode_nil]
  exact step_eq_self_of_decode_waiting waiting

end Sys2Proof.Machine
end

section
/-!
PROOFS. The host encoding (R77, R78, R81): the decoder and the encoder undo each other, the reserved
commands, and the opcode table.
-/

namespace Sys2Proof

/-! ### The command byte (R77) -/

@[simp] theorem opField_commandByte (op arg : Nibble) : opField (commandByte op arg) = op := by
  revert op arg
  decide +kernel

@[simp] theorem argField_commandByte (op arg : Nibble) : argField (commandByte op arg) = arg := by
  revert op arg
  decide +kernel

/-- A command byte is its two fields (R77). -/
theorem commandByte_fields (c : Byte) : commandByte (opField c) (argField c) = c := by
  revert c
  decide +kernel

/-- A command byte whose two fields are known. -/
theorem eq_commandByte {c : Byte} {op arg : Nibble} (hop : opField c = op) (harg : argField c = arg) :
    c = commandByte op arg := by
  rw [← hop, ← harg, commandByte_fields]

/-! ### The decoder on a command byte with its data bytes -/

/-- With exactly the data bytes its format calls for, a command is taken whole (R77, R81). -/
theorem decode_cons_append {c : Byte} {data : List Byte} (rest : List Byte)
    (whole : data.length = dataCount c) :
    decode (c :: (data ++ rest)) =
      (assemble c data).elim (.reservedOp rest) (.command · rest) := by
  have enough : ¬ (data ++ rest).length < dataCount c := by
    rw [List.length_append]
    omega
  rw [decode, if_neg enough, ← whole, List.take_left, List.drop_left]
  cases assemble c data <;> rfl

/-- What the decoder takes as a command is a command byte, the data bytes it calls for, and the rest. -/
theorem decode_eq_command {bytes rest : List Byte} {i : Instr} (read : decode bytes = .command i rest) :
    ∃ c data, bytes = c :: (data ++ rest) ∧ data.length = dataCount c ∧ assemble c data = some i := by
  cases bytes with
  | nil => cases read
  | cons c later =>
    rw [decode] at read
    split at read
    · cases read
    next enough =>
      split at read
      next j assembled =>
        cases read
        exact ⟨c, later.take (dataCount c), by rw [List.take_append_drop],
          List.length_take_of_le (by omega), assembled⟩
      next => cases read

/-- What the decoder refuses is taken with its data bytes too (R81). -/
theorem decode_eq_reservedOp {bytes rest : List Byte} (refused : decode bytes = .reservedOp rest) :
    ∃ c data, bytes = c :: (data ++ rest) := by
  cases bytes with
  | nil => cases refused
  | cons c later =>
    rw [decode] at refused
    split at refused
    · cases refused
    · split at refused
      · cases refused
      · cases refused
        exact ⟨c, later.take (dataCount c), by rw [List.take_append_drop]⟩

/-! ### Assembling an operation -/

/-- An operation whose `arg` must be 0 is assembled exactly where it is (R81). -/
theorem withZeroArg_eq_some {c : Byte} {i j : Instr} :
    withZeroArg c i = some j ↔ argField c = 0 ∧ i = j := by
  unfold withZeroArg
  split <;> simp_all

/-- The bytes of an operation are assembled to it. -/
theorem assemble_of_encode {i : Instr} {c : Byte} {data : List Byte} (bytes : encode i = c :: data) :
    assemble c data = some i := by
  cases i <;>
    · obtain ⟨rfl, rfl⟩ := List.cons.inj bytes
      simp [assemble, withZeroArg]

/-- An encoding is its command byte and as many data bytes as that byte calls for (R77). -/
theorem encode_length (i : Instr) : Laws.EncodeLength.Statement i := by
  cases i with
  | rev v => exact Laws.EncodeLength.rev v
  | xchg cmd => exact Laws.EncodeLength.xchg cmd
  | xent => exact Laws.EncodeLength.xent
  | xset => exact Laws.EncodeLength.xset
  | xext => exact Laws.EncodeLength.xext
  | xrd => exact Laws.EncodeLength.xrd
  | dec => exact Laws.EncodeLength.dec
  | btn k => exact Laws.EncodeLength.btn k
  | axis a => exact Laws.EncodeLength.axis a
  | rdreg r => exact Laws.EncodeLength.rdreg r
  | wrreg r v => exact Laws.EncodeLength.wrreg r v
  | cfg => exact Laws.EncodeLength.cfg
  | neg => exact Laws.EncodeLength.neg
  | read => exact Laws.EncodeLength.read
  | init => exact Laws.EncodeLength.init

/-- Settles O41: the encoding is a command byte with exactly its data bytes, and these assemble to the
operation. -/
theorem decodeInvertsEncode : Obligations.DecodeInvertsEncode := by
  unfold Obligations.DecodeInvertsEncode
  intro i rest fits
  obtain ⟨c, data, bytes, whole⟩ := encode_length i fits
  rw [bytes, List.cons_append, decode_cons_append rest whole, assemble_of_encode bytes, Option.elim_some]

/-! ### From the bytes to the operation -/

/-! The number of data bytes by the format (R77) -/

theorem dataCount_h0 {c : Byte} (fmt : formatOf (opField c) = some .h0) : dataCount c = 0 := by
  simp only [dataCount, fmt]

theorem dataCount_ha {c : Byte} (fmt : formatOf (opField c) = some .ha) : dataCount c = 0 := by
  simp only [dataCount, fmt]

theorem dataCount_hd {c : Byte} (fmt : formatOf (opField c) = some .hd) : dataCount c = 1 := by
  simp only [dataCount, fmt]

theorem dataCount_hx {c : Byte} (fmt : formatOf (opField c) = some .hx) :
    dataCount c = (argField c).toNat := by
  simp only [dataCount, fmt]

/-- The op select, from its value as a number. -/
theorem opField_of_toNat {c : Byte} {n : Nat} (h : (opField c).toNat = n) :
    opField c = BitVec.ofNat 4 n := by
  rw [← h, BitVec.ofNat_toNat, BitVec.setWidth_eq]

/-- A command without data bytes is its command byte. -/
theorem bytes_of_no_data {c : Byte} {data : List Byte} {op arg : Nibble} (hop : opField c = op)
    (harg : argField c = arg) (whole : data.length = dataCount c) (bare : dataCount c = 0) :
    [commandByte op arg] = c :: data := by
  rw [eq_commandByte hop harg, List.eq_nil_of_length_eq_zero (whole.trans bare)]

/-- A command with one data byte is its command byte and that byte. -/
theorem bytes_of_one_datum {c : Byte} {data : List Byte} {op arg : Nibble} (hop : opField c = op)
    (harg : argField c = arg) (whole : data.length = dataCount c) (one : dataCount c = 1) :
    [commandByte op arg, data.headD 0] = c :: data := by
  obtain ⟨v, rfl⟩ := List.length_eq_one_iff.1 (whole.trans one)
  rw [eq_commandByte hop harg, List.headD_cons]

/-- An operation of format H0 that is assembled has the bytes of its encoding. -/
theorem encode_of_h0 {c : Byte} {data : List Byte} {i j : Instr} {op : Nibble} (hop : opField c = op)
    (fmt : formatOf op = some .h0) (whole : data.length = dataCount c) (fits : WellFormed i)
    (enc : encode i = [commandByte op 0]) (assembled : withZeroArg c i = some j) :
    WellFormed j ∧ encode j = c :: data := by
  obtain ⟨harg, rfl⟩ := withZeroArg_eq_some.1 assembled
  exact ⟨fits, enc.trans (bytes_of_no_data hop harg whole (dataCount_h0 (hop ▸ fmt)))⟩

/-- An assembled operation is well formed, and the bytes are its encoding. -/
theorem encode_of_assemble {c : Byte} {data : List Byte} {i : Instr} (whole : data.length = dataCount c)
    (assembled : assemble c data = some i) : WellFormed i ∧ encode i = c :: data := by
  unfold assemble at assembled
  split at assembled
  case h_1 hop =>
    have hop := opField_of_toNat hop
    obtain ⟨harg, rfl⟩ := withZeroArg_eq_some.1 assembled
    exact ⟨rfl, bytes_of_one_datum hop harg whole (dataCount_hd (by rw [hop]; rfl))⟩
  case h_2 hop =>
    have hop := opField_of_toNat hop
    have count : dataCount c = (argField c).toNat := dataCount_hx (by rw [hop]; rfl)
    cases assembled
    refine ⟨decide_eq_true (by omega), ?_⟩
    rw [encode, whole, count, BitVec.ofNat_toNat, BitVec.setWidth_eq]
    exact congrArg (· :: data) (eq_commandByte hop rfl).symm
  case h_3 hop | h_4 hop | h_5 hop | h_6 hop | h_7 hop | h_12 hop | h_13 hop | h_14 hop | h_15 hop =>
    exact encode_of_h0 (opField_of_toNat hop) rfl whole rfl rfl assembled
  case h_8 hop | h_9 hop | h_10 hop =>
    have hop := opField_of_toNat hop
    cases assembled
    exact ⟨rfl, bytes_of_no_data hop rfl whole (dataCount_ha (by rw [hop]; rfl))⟩
  case h_11 hop =>
    have hop := opField_of_toNat hop
    cases assembled
    exact ⟨rfl, bytes_of_one_datum hop rfl whole (dataCount_hd (by rw [hop]; rfl))⟩
  case h_16 => cases assembled

/-- Settles O42: the bytes read are a command byte with exactly its data bytes, which are the encoding of
what they assemble to. -/
theorem encodeInvertsDecode : Obligations.EncodeInvertsDecode := by
  unfold Obligations.EncodeInvertsDecode
  intro bytes rest i read
  obtain ⟨c, data, rfl, whole, assembled⟩ := decode_eq_command read
  obtain ⟨fits, enc⟩ := encode_of_assemble whole assembled
  exact ⟨fits, by rw [enc, List.cons_append]⟩

/-! ### The reserved commands (R81) -/

/-- Whether a command is assembled does not depend on its data bytes, nor does its mnemonic. -/
theorem map_mnemonicOf_assemble (c : Byte) (data : List Byte) :
    (assemble c data).map mnemonicOf = (assemble c []).map mnemonicOf := by
  unfold assemble
  split
  case h_1 => unfold withZeroArg; split <;> rfl
  all_goals rfl

/-- R81's list, for a command byte alone. -/
theorem assemble_nil_eq_none (c : Byte) :
    (assemble c []).map mnemonicOf = none ↔
      opField c = 0 ∨
        argField c ≠ 0 ∧ opField c ∈ [0x1, 0x3, 0x4, 0x5, 0x6, 0x7, 0xC, 0xD, 0xE, 0xF] := by
  revert c
  decide +kernel

/-- Settles O43: the refusal is that of the command byte, whatever the data bytes are. -/
theorem reservedCommandsAreExactlyThese : Obligations.ReservedCommandsAreExactlyThese := by
  unfold Obligations.ReservedCommandsAreExactlyThese
  intro c data rest whole
  rw [decode_cons_append rest whole, ← assemble_nil_eq_none, ← map_mnemonicOf_assemble c data]
  cases assemble c data <;> simp

/-! ### The opcode table (R78) -/

/-- A command byte with a meaning has exactly one row of the table, with its mnemonic and its format. -/
theorem row_of_assemble (c : Byte) :
    ∀ name ∈ (assemble c []).map mnemonicOf,
      (opcodeTable.filter (OpcodeRow.covers · c)).map (fun row => (row.mnemonic, some row.format)) =
        [(name, formatOf (opField c))] := by
  revert c
  decide +kernel

/-- Settles O44: the row is that of the command byte, whatever the data bytes are. -/
theorem decodeFollowsTheOpcodeTable : Obligations.DecodeFollowsTheOpcodeTable := by
  unfold Obligations.DecodeFollowsTheOpcodeTable
  intro c later rest i read
  obtain ⟨c, data, bytes, -, assembled⟩ := decode_eq_command read
  obtain ⟨rfl, -⟩ := List.cons.inj bytes
  have name : mnemonicOf i ∈ (assemble c []).map mnemonicOf := by
    rw [← map_mnemonicOf_assemble c data, assembled]
    rfl
  obtain ⟨row, only, this⟩ := List.map_eq_singleton_iff.1 (row_of_assemble c _ name)
  obtain ⟨mnemonic, format⟩ := Prod.mk.inj this
  exact ⟨row, only, mnemonic, format.symm⟩

/-- Settles O45: each word is decoded by computation. -/
theorem sampleCommandsDecode : Obligations.SampleCommandsDecode := by
  unfold Obligations.SampleCommandsDecode
  decide

end Sys2Proof
end

section
/-!
PROOFS. The bit-order codec as an operation and as a table (R100, R102), and the bytes of every result (R79).
-/

namespace Sys2Proof.Machine

/-- Settles O2: a bit of the result is the mirrored bit of the operand, and the fixed points are found by
going through the 256 bytes. -/
theorem revAnswersTheReversedByte : Obligations.RevAnswersTheReversedByte := by
  unfold Obligations.RevAnswersTheReversedByte
  refine ⟨fun v s => rfl, ?bits, ?fixed⟩
  case bits =>
    intro v i inRange
    rw [reverse8_bit v (7 - i) (by omega), Nat.sub_sub_self (Nat.le_of_lt_succ inRange)]
  case fixed => decide +kernel

/-- R102: the table is `reverse8` tabulated. -/
theorem codecTable_toNat (v : Byte) : codecTable[v.toNat]? = some (reverse8 v) := by
  revert v
  decide +kernel

/-- R102: the nibbles change places, each reversed. -/
theorem reverse8_append (a b : Nibble) : reverse8 (a ++ b) = b.reverse ++ a.reverse := by
  revert a b
  decide +kernel

/-- Row `a`, column `b` of the table is the entry of the byte with high nibble `a` and low nibble `b`. -/
theorem toNat_append_nibbles (a b : Nibble) : (a ++ b : Byte).toNat = 16 * a.toNat + b.toNat := by
  rw [BitVec.toNat_append, Nat.shiftLeft_eq, Nat.mul_comm, Nat.two_pow_add_eq_or_of_lt b.isLt]

/-- Settles O3: the entry at row `a` and column `b` is that of the byte `a ++ b`. -/
theorem lookupTableAgreesWithTheBitShuffle : Obligations.LookupTableAgreesWithTheBitShuffle := by
  unfold Obligations.LookupTableAgreesWithTheBitShuffle
  refine ⟨by decide +kernel, codecTable_toNat, fun a b => ?_⟩
  rw [← toNat_append_nibbles, codecTable_toNat, reverse8_append]

/-- Settles O4: the code bytes are R206's numbers, by definition. -/
theorem resultBytesOfEveryCode : Obligations.ResultBytesOfEveryCode := by
  unfold Obligations.ResultBytesOfEveryCode
  intro s
  exact ⟨fun _ => rfl, rfl, rfl, rfl, rfl, rfl, rfl, rfl, rfl, rfl, rfl, rfl⟩

end Sys2Proof.Machine
end

section
/-!
PROOFS. The predicates of the mode byte and the STATUS byte (R25, R30).
-/

namespace Sys2Proof.Machine

/-- Settles O16: the seven fields are concatenated, so each is read off its place. -/
theorem statusByteLayout : Obligations.StatusByteLayout := by
  unfold Obligations.StatusByteLayout
  intro m cs session
  unfold statusByte
  generalize validMode m = v, aliveMode m = a, confirmedMode m = c
  cases session with
  | uninitialized => revert v a c cs; decide
  | probing => revert v a c cs; decide
  | configuringAnalogMode => revert v a c cs; decide
  | ready ok => revert v a c cs ok; decide

theorem valid_iff (f : Vector Byte 9) : valid f = true ↔ f[1].extractLsb' 4 4 = 0x7 := by
  simp [valid, validMode, modeNibble, analogNibble]

theorem alive_iff (f : Vector Byte 9) :
    alive f = true ↔ f[1] = 0x41 ∨ f[1] = 0x73 ∨ f[1] = 0x79 := by
  simp [alive, aliveMode, aliveSet]

theorem confirmed_iff (f : Vector Byte 9) : confirmed f = true ↔ f[1] = 0x73 := by
  simp [confirmed, confirmedMode, analogConfirm]

/-- Settles O17: the predicates by their definitions, their overlap by going through the 256 bytes. -/
theorem modePredicatesAndTheirOverlap : Obligations.ModePredicatesAndTheirOverlap := by
  unfold Obligations.ModePredicatesAndTheirOverlap
  exact ⟨fun f => ⟨valid_iff f, alive_iff f, confirmed_iff f⟩, by decide +kernel⟩

end Sys2Proof.Machine
end

section
/-!
PROOFS. The registers a host reads and writes (R117, R118) and the parser (R140 to R142): one equation for
each way such an operation ends.
-/

namespace Sys2Proof.Machine

/-! ### WRREG and RDREG -/

/-- WRREG of a register other than DELAY (R117). -/
theorem exec_wrreg_badIndex {r : Nibble} (v : Byte) (s : State) (h : r ≠ 1) :
    exec (.wrreg r v) s = .next (endWith .badIndex s) :=
  congrArg Host.Outcome.next (if_pos h)

/-- WRREG of DELAY (R117). -/
theorem exec_wrreg_delay (v : Byte) (s : State) :
    exec (.wrreg 1 v) s = .next (if v < delayMin ∨ delayCap < v then endWith .badValue s
      else complete [] (setDelay v s)) := rfl

/-- DELAY's legal values are 1 to 10 (R26). -/
theorem delay_out_of_range_iff (v : Byte) : v < delayMin ∨ delayCap < v ↔ v.toNat = 0 ∨ 10 < v.toNat := by
  change v.toNat < 1 ∨ 10 < v.toNat ↔ _
  omega

/-- WRREG of DELAY with a legal value. -/
theorem exec_wrreg_accepted {v : Byte} (s : State) (least : 1 ≤ v.toNat) (most : v.toNat ≤ 10) :
    exec (.wrreg 1 v) s = .next (complete [] (setDelay v s)) := by
  rw [exec_wrreg_delay, if_neg (by rw [delay_out_of_range_iff]; omega)]

/-- WRREG of DELAY with any other value. -/
theorem exec_wrreg_badValue {v : Byte} (s : State) (h : v.toNat = 0 ∨ 10 < v.toNat) :
    exec (.wrreg 1 v) s = .next (endWith .badValue s) := by
  rw [exec_wrreg_delay, if_pos ((delay_out_of_range_iff v).2 h)]

/-- Settles O14. -/
theorem wrregWritesDelayInRange : Obligations.WrregWritesDelayInRange := by
  unfold Obligations.WrregWritesDelayInRange
  intro r v s
  refine ⟨?legal, exec_wrreg_badIndex v s, ?illegal⟩
  case legal =>
    rintro rfl least most
    exact exec_wrreg_accepted s least most
  case illegal =>
    rintro rfl h
    exact exec_wrreg_badValue s h

/-- RDREG of a number that names a register (R118). -/
theorem exec_rdreg_named {r : Nibble} {name : RegisterName} (s : State) (h : registerName r = some name) :
    exec (.rdreg r) s = .next (complete [(readRegister name s).1] (readRegister name s).2) := by
  simp only [exec, execRdreg, h]

/-- RDREG of a reserved number (R31). -/
theorem exec_rdreg_reserved {r : Nibble} (s : State) (h : registerName r = none) :
    exec (.rdreg r) s = .next (endWith .badIndex s) := by
  simp only [exec, execRdreg, h]

/-- R31: register numbers 4 to 12 name FRAME[0] to FRAME[8]. -/
theorem registerName_frame (i : Fin 9) :
    registerName (BitVec.ofNat 4 (4 + i.val)) = some (.frame i) := by
  revert i
  decide

/-- R31: each number from 4 to 12 names a byte of FRAME. -/
theorem exists_registerName_frame {r : Nibble} (least : 4 ≤ r.toNat) (most : r.toNat ≤ 12) :
    ∃ i, registerName r = some (.frame i) := by
  refine ⟨⟨r.toNat - 4, by omega⟩, ?_⟩
  rw [← registerName_frame]
  congr 1
  apply BitVec.eq_of_toNat_eq
  rw [BitVec.toNat_ofNat]
  dsimp only
  omega

/-- R31: numbers 13 to 15 are reserved. -/
theorem registerName_reserved {r : Nibble} (h : 13 ≤ r.toNat) : registerName r = none := by
  revert r
  decide

/-- Settles O15: the number names the register (R31), and a read of a written register answers it and
changes nothing. -/
theorem rdregAnswersTheNamedRegister : Obligations.RdregAnswersTheNamedRegister := by
  unfold Obligations.RdregAnswersTheNamedRegister
  intro s
  refine ⟨exec_rdreg_named (name := .delay) s rfl, fun written => ⟨?status, fun i => ?frame⟩,
    fun written => ⟨?low, ?high⟩, fun r reserved => exec_rdreg_reserved s (registerName_reserved reserved)⟩
  case status => rw [exec_rdreg_named s rfl, readRegister, memRead_written _ s written]; rfl
  case frame => rw [exec_rdreg_named s (registerName_frame i), readRegister, memRead_written _ s written]
  case low => rw [exec_rdreg_named s rfl, readRegister, readBtn_written s written]
  case high => rw [exec_rdreg_named s rfl, readRegister, readBtn_written s written]

/-! ### DEC -/

theorem exec_dec (s : State) : exec .dec s = .next (complete [] (decodeButtons s)) := rfl

/-- R55, D7: the first button byte is the low half of the mask. -/
theorem packButtons_low (low high : Byte) : (packButtons low high).extractLsb' 0 8 = low := by
  apply BitVec.eq_of_getLsbD_eq
  intro i h
  have : i < 16 := by omega
  simp [packButtons, h, this]

/-- R55, D7: the second button byte is the high half of the mask. -/
theorem packButtons_high (low high : Byte) : (packButtons low high).extractLsb' 8 8 = high := by
  apply BitVec.eq_of_getLsbD_eq
  intro i h
  have : 8 + i < 16 := by omega
  simp [packButtons, h, this]

/-- Settles O18: DEC stores the packed mask, whose halves are the two bytes. -/
theorem decLatchesTheButtonBytes : Obligations.DecLatchesTheButtonBytes := by
  unfold Obligations.DecLatchesTheButtonBytes
  intro s written
  refine ⟨packButtons s.frame[3] s.frame[4], ?_, packButtons_low _ _, packButtons_high _ _⟩
  rw [exec_dec, decodeButtons_written s written]

/-- DEC draws values and writes BTN and BWR; it makes no event (R140). -/
theorem decodeButtons_spec (s : State) :
    Evolves { s with freeDraws := (decodeButtons s).freeDraws } (decodeButtons s) [] ∧
    registers (decodeButtons s) = { registers s with btn := (decodeButtons s).btn, bwr := s.fwr } := by
  by_cases written : s.fwr = true
  · rw [decodeButtons_written s written]
    exact ⟨(Evolves.refl s).of_registers, by simp only [registers, written]⟩
  · have unwritten : s.fwr = false := Bool.eq_false_of_not_eq_true written
    have drawn : decodeButtons s =
        { s with
          btn := packButtons (Config.freeByte s.freeDraws) (Config.freeByte (s.freeDraws + 1))
          bwr := s.fwr
          freeDraws := s.freeDraws + 2 } := by
      simp [decodeButtons, memRead_unwritten, unwritten]
    rw [drawn]
    exact ⟨(Evolves.refl { s with freeDraws := s.freeDraws + 2 }).of_registers, rfl⟩

/-- Settles O19. -/
theorem decOfAnUnwrittenFrameLeavesBtnUnwritten : Obligations.DecOfAnUnwrittenFrameLeavesBtnUnwritten := by
  unfold Obligations.DecOfAnUnwrittenFrameLeavesBtnUnwritten
  intro s unwritten
  obtain ⟨evolves, regs⟩ := decodeButtons_spec s
  rw [unwritten] at regs
  exact ⟨decodeButtons s, exec_dec s, regs, evolves⟩

/-! ### BTN and AXIS -/

theorem exec_btn (k : Nibble) (s : State) :
    exec (.btn k) s = .next (complete [pressedByte (pressedIn (readBtn s).1 k)] (readBtn s).2) := rfl

/-- R141: a button is pressed where its bit of the mask is clear. -/
theorem pressedIn_eq (m : Mask) (k : Nibble) : pressedIn m k = !m.getLsbD k.toNat := by
  have mask : buttonMask k = BitVec.twoPow 16 k.toNat := rfl
  have inRange : k.toNat < 16 := k.isLt
  rw [pressedIn, mask, BitVec.and_twoPow]
  cases m.getLsbD k.toNat with
  | false => rfl
  | true =>
    have nonzero : BitVec.twoPow 16 k.toNat ≠ 0 := by
      intro zero
      have := congrArg (·.getLsbD k.toNat) zero
      simp [inRange] at this
    simpa using nonzero

/-- R79: BTN's data byte, from the bit of the mask. -/
theorem pressedByte_pressedIn (m : Mask) (k : Nibble) :
    pressedByte (pressedIn m k) = if m.getLsbD k.toNat then 0x00 else 0x01 := by
  rw [pressedIn_eq, pressedByte]
  cases m.getLsbD k.toNat <;> rfl

/-- BTN of a written mask (R141). -/
theorem exec_btn_written (k : Nibble) {s : State} (written : s.bwr = true) :
    exec (.btn k) s = .next (complete [pressedByte (pressedIn s.btn k)] s) := by
  rw [exec_btn, readBtn_written s written]

/-- Settles O20: active low by the bit, and by the two named buttons' masks. -/
theorem btnAnswersActiveLow : Obligations.BtnAnswersActiveLow := by
  unfold Obligations.BtnAnswersActiveLow
  refine ⟨fun k s written => ?bit, fun s written select start => ⟨?select, ?start⟩⟩
  case bit => rw [exec_btn_written k written, pressedByte_pressedIn]
  case select =>
    have pressed : pressedIn s.btn 0 = true := beq_iff_eq.2 select
    rw [exec_btn_written 0 written, pressed, pressedByte, if_pos rfl]
  case start =>
    have released : pressedIn s.btn 3 = false := beq_eq_false_iff_ne.2 start
    rw [exec_btn_written 3 written, released, pressedByte, if_neg Bool.false_ne_true]

/-- AXIS of an index it reads (R142). -/
theorem exec_axis_named {a : Nibble} {i : Fin 9} (s : State) (h : axisIndex a = some i) :
    exec (.axis a) s = .next (complete [(memRead i s).1] (memRead i s).2) := by
  simp only [exec, execAxis, h]

/-- AXIS of any other index (D9). -/
theorem exec_axis_badIndex {a : Nibble} (s : State) (h : axisIndex a = none) :
    exec (.axis a) s = .next (endWith .badIndex s) := by
  simp only [exec, execAxis, h]

theorem exists_axisIndex {a : Nibble} (least : 5 ≤ a.toNat) (most : a.toNat ≤ 8) :
    ∃ i, axisIndex a = some i := by
  revert a
  decide

theorem axisIndex_eq_none {a : Nibble} (h : a.toNat < 5 ∨ 8 < a.toNat) : axisIndex a = none := by
  revert a
  decide

/-- Settles O21. -/
theorem axisAnswersTheRawByte : Obligations.AxisAnswersTheRawByte := by
  unfold Obligations.AxisAnswersTheRawByte
  intro s
  have reads : ∀ (a : Nibble) (i : Fin 9), axisIndex a = some i → s.fwr = true →
      exec (.axis a) s = .next (complete [s.frame[i]] s) := by
    intro a i named written
    rw [exec_axis_named s named, memRead_written i s written]
  exact ⟨fun written => ⟨reads 5 5 rfl written, reads 6 6 rfl written, reads 7 7 rfl written,
    reads 8 8 rfl written⟩, fun a outside => exec_axis_badIndex s (axisIndex_eq_none outside)⟩

/-- Settles O22: every such query reads FRAME or BTN once, and a read of an unwritten one draws. -/
theorem unwrittenReadsAnswerFreeValues : Obligations.UnwrittenReadsAnswerFreeValues := by
  unfold Obligations.UnwrittenReadsAnswerFreeValues
  intro s
  refine ⟨fun unwritten => ⟨?axis, ?frame, ?status⟩, fun unwritten => ⟨?btn, ?low, ?high⟩⟩
  case axis =>
    intro a least most
    obtain ⟨i, named⟩ := exists_axisIndex least most
    rw [exec_axis_named s named, memRead_unwritten i s unwritten]
  case frame =>
    intro r least most
    obtain ⟨i, named⟩ := exists_registerName_frame least most
    rw [exec_rdreg_named s named, readRegister, memRead_unwritten i s unwritten]
  case status => rw [exec_rdreg_named s rfl, readRegister, memRead_unwritten _ s unwritten]
  case btn =>
    intro k
    rw [exec_btn, readBtn_unwritten s unwritten, pressedByte_pressedIn]
  case low => rw [exec_rdreg_named s rfl, readRegister, readBtn_unwritten s unwritten]
  case high => rw [exec_rdreg_named s rfl, readRegister, readBtn_unwritten s unwritten]

end Sys2Proof.Machine
end

section
/-!
PROOFS. How each operation on the bus ends: one equation for each refusal and one for the accepted operation
(R110 to R116, R161 to R163, R205, R208).
-/

namespace Sys2Proof.Machine

/-! ### Refusals -/

theorem exec_xchg_badLength {cmd : List Byte} (s : State) (h : cmd.length = 0 ∨ 9 < cmd.length) :
    exec (.xchg cmd) s = .next (endWith .badLength s) :=
  congrArg Host.Outcome.next (if_pos h)

theorem answerExchange_unconfigured (cmd : List Byte) {s : State} (unconfigured : s.cfgd = false) :
    answerExchange cmd s = endWith .notConfigured s :=
  if_neg (Bool.eq_false_iff.1 unconfigured)

theorem exec_xrd_unconfigured {s : State} (unconfigured : s.cfgd = false) :
    exec .xrd s = .next (endWith .notConfigured s) :=
  congrArg Host.Outcome.next (if_neg (Bool.eq_false_iff.1 unconfigured))

theorem exec_cfg_badConfig {s : State} (unusable : s.params.pinsUsable = false) :
    exec .cfg s = .next (endWith .badConfig s) :=
  congrArg Host.Outcome.next (if_neg (Bool.eq_false_iff.1 unusable))

/-- NEG for want of a session, under the model's parameter (log 24). -/
theorem exec_neg_noSession {s : State} (needed : s.params.negNeedsSession = true)
    (none : s.session = .uninitialized) : exec .neg s = .next (endWith .noSession s) :=
  congrArg Host.Outcome.next (if_pos ⟨needed, none⟩)

/-- NEG that is not refused for want of a session goes by CFGD (R161). -/
theorem exec_neg_available {s : State} (available : NegAvailable s) :
    exec .neg s = .next (if s.cfgd then complete [] (negotiate s) else endWith .notConfigured s) :=
  congrArg Host.Outcome.next (if_neg fun both => available both.1 both.2)

theorem exec_neg_unconfigured {s : State} (available : NegAvailable s) (unconfigured : s.cfgd = false) :
    exec .neg s = .next (endWith .notConfigured s) := by
  rw [exec_neg_available available, if_neg (Bool.eq_false_iff.1 unconfigured)]

theorem exec_read_noSession {s : State} (none : s.session = .uninitialized) :
    exec .read s = .next (endWith .noSession s) :=
  congrArg Host.Outcome.next (if_pos none)

theorem exec_read_unconfigured {s : State} (session : s.session ≠ .uninitialized)
    (unconfigured : s.cfgd = false) : exec .read s = .next (endWith .notConfigured s) := by
  rw [exec, execRead, if_neg session, if_neg (Bool.eq_false_iff.1 unconfigured)]

theorem exec_init_badConfig {s : State} (unusable : s.params.pinsUsable = false) :
    exec .init s = .next (endWith .badConfig s) :=
  congrArg Host.Outcome.next (if_neg (Bool.eq_false_iff.1 unusable))

/-! ### Accepted operations -/

theorem exec_xchg_accepted {cmd : List Byte} (s : State) (least : 1 ≤ cmd.length)
    (most : cmd.length ≤ 9) : exec (.xchg cmd) s = .next (answerExchange cmd s) := by
  rw [exec, execXchg, if_neg (by simp only [cmdMax]; omega)]

theorem exec_cfg_accepted {s : State} (usable : s.params.pinsUsable = true) :
    exec .cfg s = .next (complete [] (configure s)) :=
  congrArg Host.Outcome.next (if_pos usable)

theorem exec_neg_accepted {s : State} (available : NegAvailable s) (configured : s.cfgd = true) :
    exec .neg s = .next (complete [] (negotiate s)) := by
  rw [exec_neg_available available, if_pos configured]

/-- An accepted READ ends in OK or in ReadMiss (R162). -/
theorem exec_read_accepted {s : State} (session : s.session ≠ .uninitialized) (configured : s.cfgd = true) :
    exec .read s = .next (endWith (if (readOnce s).1 then .ok else .readMiss) (readOnce s).2) := by
  rw [exec, execRead, if_neg session, if_pos configured]
  cases (readOnce s).1 <;> rfl

theorem exec_init_accepted {s : State} (usable : s.params.pinsUsable = true) :
    exec .init s = .next (endWith (startSession s).1 (startSession s).2) :=
  congrArg Host.Outcome.next (if_pos usable)

/-! ### The obligations on refusals -/

/-- Settles O11. -/
theorem exchangesNeedConfiguration : Obligations.ExchangesNeedConfiguration := by
  unfold Obligations.ExchangesNeedConfiguration
  intro s unconfigured
  have refused : ∀ cmd, answerExchange cmd s = endWith .notConfigured s :=
    fun cmd => answerExchange_unconfigured cmd unconfigured
  refine ⟨fun cmd least most => ?xchg, ?xent, ?xset, ?xext, exec_xrd_unconfigured unconfigured,
    fun available => exec_neg_unconfigured available unconfigured⟩
  case xchg => rw [exec_xchg_accepted s least most, refused]
  case xent => rw [exec_xent, refused]
  case xset => rw [exec_xset, refused]
  case xext => rw [exec_xext, refused]

/-- Settles O12: the length is tested before CFGD. -/
theorem xchgLengthIsTestedFirst : Obligations.XchgLengthIsTestedFirst := by
  unfold Obligations.XchgLengthIsTestedFirst
  exact fun _ s illegal => exec_xchg_badLength s illegal

/-- Settles O28: SESSION is tested before CFGD. -/
theorem readWithoutASessionIsRefused : Obligations.ReadWithoutASessionIsRefused := by
  unfold Obligations.ReadWithoutASessionIsRefused
  exact fun _ => ⟨exec_read_noSession, exec_read_unconfigured⟩

/-- Settles O31. -/
theorem initOnUnusablePinsIsRefused : Obligations.InitOnUnusablePinsIsRefused := by
  unfold Obligations.InitOnUnusablePinsIsRefused
  exact fun _ unusable => exec_init_badConfig unusable

end Sys2Proof.Machine
end

section
/-!
PROOFS. The accepted exchanges and CFG (R110 to R116): response, trace, registers, and their time on the
reference clock (R247).
-/

namespace Sys2Proof.Machine

/-- An exchange that stores nothing: the response, the trace, and the registers (R110). -/
theorem answerExchange_spec (cmd : List Byte) {s : State} (configured : s.cfgd = true) :
    ∃ t, answerExchange cmd s = complete (protocolFrom s 0 cmd.length) t ∧
      Evolves s t (exchangeTrace (codecImage cmd) (answersFrom s 0 cmd.length) s.delay.toNat) ∧
      registers t = { registers s with cs := true } := by
  obtain ⟨response, evolves, regs⟩ := exchange_spec cmd s
  exact ⟨(exchange cmd s).2, by rw [answerExchange_configured cmd configured, response], evolves, regs⟩

/-- Settles O7. -/
theorem xchgRunsOneExchange : Obligations.XchgRunsOneExchange := by
  unfold Obligations.XchgRunsOneExchange
  intro cmd s least most configured
  obtain ⟨t, answer, evolves, regs⟩ := answerExchange_spec cmd configured
  exact ⟨t, by rw [exec_xchg_accepted s least most, answer], evolves, regs⟩

/-- Settles O9: each literal's raw bytes are its codec image (R73). -/
theorem configurationLiteralsAreExchanged : Obligations.ConfigurationLiteralsAreExchanged := by
  unfold Obligations.ConfigurationLiteralsAreExchanged
  intro s configured
  refine ⟨?xent, ?xset, ?xext⟩
  case xent =>
    obtain ⟨t, answer, evolves, regs⟩ := answerExchange_spec enterConfiguration configured
    rw [codecImage_enterConfiguration] at evolves
    exact ⟨t, by rw [exec_xent, answer, length_enterConfiguration], evolves, regs⟩
  case xset =>
    obtain ⟨t, answer, evolves, regs⟩ := answerExchange_spec setAnalogMode configured
    rw [codecImage_setAnalogMode] at evolves
    exact ⟨t, by rw [exec_xset, answer, length_setAnalogMode], evolves, regs⟩
  case xext =>
    obtain ⟨t, answer, evolves, regs⟩ := answerExchange_spec exitConfiguration configured
    rw [codecImage_exitConfiguration] at evolves
    exact ⟨t, by rw [exec_xext, answer, length_exitConfiguration], evolves, regs⟩

/-- The frame stored is the response, byte for byte (R115). -/
theorem toList_frameFrom (s : State) (k : Nat) : (frameFrom s k).toList = protocolFrom s k 9 := by
  apply List.ext_getElem
  · simp [protocolFrom]
  · intro i _ _
    simp [frameFrom, protocolFrom, answersFrom]

/-- The accepted XRD answers the response it stores (R115). -/
theorem exec_xrd_accepted {s : State} (configured : s.cfgd = true) :
    exec .xrd s = .next (complete (readDataExchange s).1 (readDataExchange s).2) :=
  exec_xrd_configured configured

/-- Settles O10. -/
theorem xrdStoresTheResponseFrame : Obligations.XrdStoresTheResponseFrame := by
  unfold Obligations.XrdStoresTheResponseFrame
  intro s configured
  obtain ⟨response, evolves, regs⟩ := readDataExchange_spec s
  have frame : (readDataExchange s).2.frame = frameFrom s 0 := by
    simpa using congrArg Registers.frame regs
  refine ⟨(readDataExchange s).2, ?_, evolves, ?_, ?_⟩
  · rw [exec_xrd_accepted configured, response]
  · rw [regs]
  · rw [frame, toList_frameFrom]

/-- Settles O13. -/
theorem cfgConfiguresAndParksSelect : Obligations.CfgConfiguresAndParksSelect := by
  unfold Obligations.CfgConfiguresAndParksSelect
  intro s
  exact ⟨fun usable => ⟨configure s, exec_cfg_accepted usable, configure_spec s⟩, exec_cfg_badConfig⟩

/-! ### The reference clock (R247) -/

/-- A sum of equal terms over a range. -/
theorem sum_map_range_const {f : Nat → Nat} {c n : Nat} (h : ∀ k < n, f k = c) :
    ((List.range n).map f).sum = n * c := by
  rw [List.map_congr_left fun k hk => h k (List.mem_range.1 hk)]
  simp

/-- The ticks of an exchange of `n` bytes on the reference clock: one byte time for each transfer, which
are the events 4 to `n + 3`. -/
theorem tickSum_referenceClock {s : State} {n byte : Nat}
    (ticks : ∀ k < n + 6, tickAt s k = if 4 ≤ k ∧ k < 4 + n then byte else 0) :
    tickSum s (n + 6) = byte * n := by
  have head : tickSum s 4 = 4 * 0 :=
    sum_map_range_const fun k hk => by rw [ticks k (by omega), if_neg (by omega)]
  have transfers : ((List.range n).map fun j => tickAt s (4 + j)).sum = n * byte :=
    sum_map_range_const fun k hk => by rw [ticks _ (by omega), if_pos (by omega)]
  have tail : ((List.range 2).map fun j => tickAt s (4 + n + j)).sum = 2 * 0 :=
    sum_map_range_const fun k hk => by rw [ticks _ (by omega), if_neg (by omega)]
  rw [show n + 6 = 4 + n + 2 by omega, tickSum_add, tickSum_add, head, transfers, tail, Nat.mul_comm byte]
  omega

/-- Settles O56: the least times of the events are the settle and the trailing wait; the clock adds the byte
times. -/
theorem exchangeTimeOnTheReferenceClock : Obligations.ExchangeTimeOnTheReferenceClock := by
  unfold Obligations.ExchangeTimeOnTheReferenceClock
  intro cmd s t least most configured ticks run
  obtain ⟨u, answer, evolves, -⟩ := answerExchange_spec cmd configured
  rw [exec_xchg_accepted s least most, answer] at run
  cases run
  have same : (codecImage cmd).length = (answersFrom s 0 cmd.length).length := by simp
  have now := evolves.now
  rw [leastTime_exchangeTrace, length_exchangeTrace _ _ _ same, length_codecImage, Nat.add_zero,
    tickSum_referenceClock ticks] at now
  rw [complete_now, now]
  omega

end Sys2Proof.Machine
end

section
/-!
PROOFS. NEG (R161): its trace, its Layer 1 expansion, and that its responses reach nothing.
-/

namespace Sys2Proof.Machine

/-- Settles O23. -/
theorem negRunsTheThreeLiterals : Obligations.NegRunsTheThreeLiterals := by
  unfold Obligations.NegRunsTheThreeLiterals
  intro s configured available
  obtain ⟨evolves, regs⟩ := negotiate_spec s
  exact ⟨negotiate s, exec_neg_accepted available configured, evolves, length_negTrace s 0,
    transferCount_negTrace s 0, regs⟩

/-! ### Operations run for their effect (`quietly`) -/

/-- An operation run for its effect leaves the state it completes with. -/
theorem quietly_of_complete {i : Instr} {s t : State} {data : List Byte}
    (run : exec i s = .next (complete data t)) (out : t.hostOut = s.hostOut) : quietly i s = t := by
  rw [quietly, run, ← out]
  rfl

/-- So does one that ends with another code. -/
theorem quietly_of_endWith {i : Instr} {s t : State} {c : ResultCode}
    (run : exec i s = .next (endWith c t)) (out : t.hostOut = s.hostOut) : quietly i s = t := by
  rw [quietly, run, ← out]
  rfl

theorem exchange_hostOut (cmd : List Byte) (s : State) : (exchange cmd s).2.hostOut = s.hostOut :=
  (exchange_spec cmd s).2.1.hostOut

theorem exchange_cfgd (cmd : List Byte) (s : State) : (exchange cmd s).2.cfgd = s.cfgd := by
  simpa using congrArg Registers.cfgd (exchange_spec cmd s).2.2

theorem quietly_xent {s : State} (configured : s.cfgd = true) :
    quietly .xent s = (exchange enterConfiguration s).2 :=
  quietly_of_complete (by rw [exec_xent, answerExchange_configured _ configured]) (exchange_hostOut _ s)

theorem quietly_xset {s : State} (configured : s.cfgd = true) :
    quietly .xset s = (exchange setAnalogMode s).2 :=
  quietly_of_complete (by rw [exec_xset, answerExchange_configured _ configured]) (exchange_hostOut _ s)

theorem quietly_xext {s : State} (configured : s.cfgd = true) :
    quietly .xext s = (exchange exitConfiguration s).2 :=
  quietly_of_complete (by rw [exec_xext, answerExchange_configured _ configured]) (exchange_hostOut _ s)

/-- The three configuration exchanges, one after another, are the renegotiation (R161). -/
theorem quietly_xent_xset_xext {s : State} (configured : s.cfgd = true) :
    quietly .xext (quietly .xset (quietly .xent s)) = negotiate s := by
  rw [quietly_xent configured, quietly_xset (by rw [exchange_cfgd, configured]),
    quietly_xext (by rw [exchange_cfgd, exchange_cfgd, configured]), negotiate]

theorem negotiate_hostOut (s : State) : (negotiate s).hostOut = s.hostOut :=
  (negotiate_spec s).1.hostOut

theorem quietly_neg {s : State} (available : NegAvailable s) (configured : s.cfgd = true) :
    quietly .neg s = negotiate s :=
  quietly_of_complete (exec_neg_accepted available configured) (negotiate_hostOut s)

/-- Settles O24: with CFGD = 1 both sides are the renegotiation, with CFGD = 0 every operation is refused. -/
theorem negIsXentXsetXext : Obligations.NegIsXentXsetXext := by
  unfold Obligations.NegIsXentXsetXext
  intro s available
  cases configured : s.cfgd with
  | true => rw [quietly_neg available configured, quietly_xent_xset_xext configured]
  | false =>
    have refused : ∀ {i cmd}, exec i s = .next (answerExchange cmd s) → quietly i s = s := by
      intro i cmd run
      exact quietly_of_endWith (by rw [run, answerExchange_unconfigured cmd configured]) rfl
    rw [quietly_of_endWith (exec_neg_unconfigured available configured) rfl, refused (exec_xent s),
      refused (exec_xset s), refused (exec_xext s)]

/-! ### Two runs with different answers -/

/-- Two states that differ in the trace and in PEER's next `n` answers alone. -/
structure DifferInAnswers (n : Nat) (s t : State) : Prop where
  heads : ∃ a b later, a.length = n ∧ b.length = n ∧ s.answers = a ++ later ∧ t.answers = b ++ later
  rest : { s with trace := t.trace, answers := t.answers } = t

/-- The clock and an event of the same least time keep them so. -/
theorem DifferInAnswers.after_emit {n : Nat} {s t : State} (h : DifferInAnswers n s t) (e e' : Event)
    (same : leastDuration e = leastDuration e') : DifferInAnswers n (emit e s) (emit e' t) where
  heads := by simpa using h.heads
  rest := by
    obtain ⟨-, rest⟩ := h
    rw [← rest]
    unfold emit elapse
    rw [same]
    cases ticks : s.ticks <;> simp

theorem DifferInAnswers.after_driveSelect {n : Nat} {s t : State} (h : DifferInAnswers n s t) (level : Bool) :
    DifferInAnswers n (driveSelect level s) (driveSelect level t) where
  heads := (h.after_emit _ _ rfl).heads
  rest := by
    unfold driveSelect
    rw [← (h.after_emit (.line .select level) (.line .select level) rfl).rest]

/-- A transfer takes one answer of each. -/
theorem DifferInAnswers.after_xfer {n : Nat} {s t : State} (h : DifferInAnswers (n + 1) s t) (o : Byte) :
    DifferInAnswers n (xfer o s).2 (xfer o t).2 := by
  obtain ⟨⟨a, b, later, ha, hb, left, right⟩, rest⟩ := h
  obtain ⟨x, a, rfl⟩ := List.exists_cons_of_length_eq_add_one ha
  obtain ⟨y, b, rfl⟩ := List.exists_cons_of_length_eq_add_one hb
  have drawnLeft : nextAnswer s = (x, { s with answers := a ++ later }) := by
    simp [nextAnswer, left]
  have drawnRight : nextAnswer t = (y, { t with answers := b ++ later }) := by
    simp [nextAnswer, right]
  unfold xfer
  rw [drawnLeft, drawnRight]
  refine DifferInAnswers.after_emit
    ⟨⟨a, b, later, by simpa using ha, by simpa using hb, rfl, rfl⟩, ?_⟩ _ _ rfl
  rw [← rest]

theorem DifferInAnswers.delay {n : Nat} {s t : State} (h : DifferInAnswers n s t) : t.delay = s.delay :=
  (congrArg State.delay h.rest).symm

theorem DifferInAnswers.after_delayFor {n : Nat} {s t : State} (h : DifferInAnswers n s t) (us : Nat) :
    DifferInAnswers n (delayFor us s) (delayFor us t) :=
  h.after_emit _ _ rfl

theorem DifferInAnswers.after_transferBytes {n : Nat} (cmd : List Byte) {s t : State}
    (h : DifferInAnswers (n + cmd.length) s t) :
    DifferInAnswers n (transferBytes cmd s).2 (transferBytes cmd t).2 := by
  induction cmd generalizing s t with
  | nil => exact h
  | cons b later ih => exact ih (h.after_xfer (reverse8 b))

theorem DifferInAnswers.after_selectPeer {n : Nat} {s t : State} (h : DifferInAnswers n s t) :
    DifferInAnswers n (selectPeer s) (selectPeer t) :=
  (((h.after_emit (.line .dataOut true) (.line .dataOut true) rfl).after_emit
    (.line .clock true) (.line .clock true) rfl).after_driveSelect false).after_delayFor settleUs

theorem DifferInAnswers.after_releasePeer {n : Nat} {s t : State} (h : DifferInAnswers n s t) :
    DifferInAnswers n (releasePeer s) (releasePeer t) := by
  have released := h.after_driveSelect true
  unfold releasePeer
  rw [released.delay]
  exact released.after_delayFor _

theorem DifferInAnswers.after_exchange {n : Nat} (cmd : List Byte) {s t : State}
    (h : DifferInAnswers (n + cmd.length) s t) :
    DifferInAnswers n (exchange cmd s).2 (exchange cmd t).2 :=
  (h.after_selectPeer.after_transferBytes cmd).after_releasePeer

/-- The renegotiation takes 23 answers, and nothing else of the states comes to differ. -/
theorem DifferInAnswers.after_negotiate {s t : State} (h : DifferInAnswers 23 s t) :
    DifferInAnswers 0 (negotiate s) (negotiate t) :=
  ((h.after_exchange (n := 18) enterConfiguration).after_exchange (n := 9) setAnalogMode).after_exchange
    (n := 0) exitConfiguration

/-- Where no differing answer is left, the trace alone differs. -/
theorem DifferInAnswers.trace_only {s t : State} (h : DifferInAnswers 0 s t) :
    { s with trace := t.trace } = t := by
  obtain ⟨⟨a, b, later, ha, hb, left, right⟩, rest⟩ := h
  have answers : s.answers = t.answers := by
    rw [left, right, List.eq_nil_of_length_eq_zero ha, List.eq_nil_of_length_eq_zero hb]
  rw [← answers] at rest
  exact rest

/-- A completion adds the same result to both. -/
theorem complete_trace_only {s t : State} (data : List Byte) (h : { s with trace := t.trace } = t) :
    { complete data s with trace := (complete data t).trace } = complete data t :=
  congrArg (complete data) h

/-- Settles O25: the two runs differ in the answers still to be drawn, and after 23 transfers in none. -/
theorem negIgnoresTheResponses : Obligations.NegIgnoresTheResponses := by
  unfold Obligations.NegIgnoresTheResponses
  intro s t u a b later configured available ha hb runLeft runRight
  rw [exec_neg_accepted (s := { s with answers := a ++ later }) available configured] at runLeft
  rw [exec_neg_accepted (s := { s with answers := b ++ later }) available configured] at runRight
  obtain rfl := Host.Outcome.next.inj runLeft
  obtain rfl := Host.Outcome.next.inj runRight
  have start : DifferInAnswers 23 { s with answers := a ++ later } { s with answers := b ++ later } :=
    ⟨⟨a, b, later, ha, hb, rfl, rfl⟩, rfl⟩
  exact complete_trace_only [] start.after_negotiate.trace_only

end Sys2Proof.Machine
end

section
/-!
PROOFS. One step at the host port (R59, R77, R207, R212), and the state after reset (R36).
-/

namespace Sys2Proof.Machine

/-! ### What a step runs -/

theorem step_of_decode_command {s : State} {i : Instr} {rest : List Byte}
    (read : decode s.hostIn = .command i rest) : step s = exec i (takeCommand rest s) := by
  rw [step, fetch, read]

theorem step_of_decode_reservedOp {s : State} {rest : List Byte}
    (refused : decode s.hostIn = .reservedOp rest) :
    step s = .next (endWith .reservedOp (takeCommand rest s)) := by
  rw [step, fetch, refused]
  rfl

/-- While data bytes are missing the decoder waits (R77). -/
theorem decode_waiting {c : Byte} {later : List Byte} (short : later.length < dataCount c) :
    decode (c :: later) = .waiting := by
  rw [decode, if_pos short]

/-- Before a command there is a gap, in which the clock ticks once (R212). -/
theorem takeCommand_eq (rest : List Byte) (s : State) :
    takeCommand rest s =
      { s with
        hostIn := rest
        now := s.now + tickAt s 0
        ticks := (takeCommand rest s).ticks
        tickDraws := (takeCommand rest s).tickDraws } := by
  cases ticks : s.ticks <;> simp [takeCommand, elapse, tickAt, ticks]

/-- The gap takes the clock's next tick. -/
theorem tickAt_takeCommand (rest : List Byte) (s : State) (k : Nat) :
    tickAt (takeCommand rest s) k = tickAt s (1 + k) := by
  rw [takeCommand, tickAt_elapse, Nat.add_comm]
  exact tickAt_congr rfl rfl _

@[simp] theorem registers_takeCommand (rest : List Byte) (s : State) :
    registers (takeCommand rest s) = registers s := by
  simp [registers]

/-- Settles O38. -/
theorem stepRunsTheDecodedCommand : Obligations.StepRunsTheDecodedCommand := by
  unfold Obligations.StepRunsTheDecodedCommand
  intro s i rest read
  exact ⟨step_of_decode_command read, takeCommand_eq rest s, tickAt_takeCommand rest s⟩

/-- Settles O39. -/
theorem stepRefusesReservedAndWaitsForBytes : Obligations.StepRefusesReservedAndWaitsForBytes := by
  unfold Obligations.StepRefusesReservedAndWaitsForBytes
  intro s
  refine ⟨fun rest refused => ?reserved, fun c later bytes short => ?waiting⟩
  case reserved =>
    exact ⟨takeCommand rest s, step_of_decode_reservedOp refused, registers_takeCommand rest s,
      takeCommand_trace rest s, takeCommand_hostIn rest s, takeCommand_hostOut rest s,
      takeCommand_params rest s⟩
  case waiting => exact step_eq_self_of_decode_waiting (by rw [bytes, decode_waiting short])

/-- Every operation answers a next state (R200). -/
theorem exec_answers (i : Instr) (s : State) : ∃ t, exec i s = .next t := by
  cases i <;> exact ⟨_, rfl⟩

/-- Settles O46: the three things the decoder can find. -/
theorem everyStepAnswersANextState : Obligations.EveryStepAnswersANextState := by
  unfold Obligations.EveryStepAnswersANextState
  intro s
  cases found : decode s.hostIn with
  | waiting => exact ⟨s, step_eq_self_of_decode_waiting found⟩
  | reservedOp rest => exact ⟨_, step_of_decode_reservedOp found⟩
  | command i rest =>
    rw [step_of_decode_command found]
    exact exec_answers i _

/-! ### Reset -/

/-- Settles O47. -/
theorem resetHasTheSpecifiedValues : Obligations.ResetHasTheSpecifiedValues := by
  unfold Obligations.ResetHasTheSpecifiedValues
  exact ⟨rfl, fun _ => ⟨rfl, rfl, rfl, rfl, rfl, rfl, rfl, rfl, rfl, rfl⟩⟩

theorem one_le_delayCeiling (p : Params) : 1 ≤ delayCeiling p := by
  unfold delayCeiling
  split <;> decide

/-- Settles O48: DELAY is 1, below either ceiling, and there is no session. -/
theorem resetMeetsTheInvariant : Obligations.ResetMeetsTheInvariant := by
  unfold Obligations.ResetMeetsTheInvariant
  intro p
  exact ⟨rfl, Nat.le_refl 1, one_le_delayCeiling p, Or.inl rfl, Nat.le_refl 0,
    fun session => absurd session Bool.false_ne_true⟩

end Sys2Proof.Machine
end

section
/-!
PROOFS. The two finer machines: the step table of one exchange (R111) and the bits of one transfer (R121).
-/

namespace Sys2Proof.Machine

/-! ### The step table -/

theorem smallSteps_add (m n : Nat) (f : InFlight) :
    smallSteps (m + n) f = smallSteps n (smallSteps m f) := by
  induction m generalizing f with
  | zero => rw [Nat.zero_add, smallSteps]
  | succ m ih => rw [Nat.succ_add, smallSteps, ih, smallSteps]

/-- Shifting bytes still to go: as many steps make the transfer loop. -/
theorem smallSteps_shifting (later taken response : List Byte) (storing : Bool) (s : State) :
    smallSteps later.length ⟨s, .shifting, taken ++ later, taken.length, response, storing⟩ =
      ⟨(transferBytes later s).2, .shifting, taken ++ later, (taken ++ later).length,
        response ++ (transferBytes later s).1, storing⟩ := by
  induction later generalizing taken response s with
  | nil => simp [smallSteps, transferBytes]
  | cons b later ih =>
    have first : smallStep ⟨s, .shifting, taken ++ b :: later, taken.length, response, storing⟩ =
        ⟨(xfer (reverse8 b) s).2, .shifting, (taken ++ [b]) ++ later, (taken ++ [b]).length,
          response ++ [reverse8 (xfer (reverse8 b) s).1], storing⟩ := by
      simp [smallStep]
    rw [List.length_cons, smallSteps, first, ih]
    simp [transferBytes]

/-- The whole table, row by row (R111): the head, the transfers, the release, the trailing wait. -/
theorem smallSteps_acceptExchange (cmd : List Byte) (storing : Bool) (s : State) :
    smallSteps (cmd.length + 5) (acceptExchange cmd storing s) =
      ⟨if storing then storeFrame (exchange cmd s).1 (exchange cmd s).2 else (exchange cmd s).2,
        .idle, cmd, cmd.length, (exchange cmd s).1, storing⟩ := by
  have head : smallSteps 3 (acceptExchange cmd storing s) =
      ⟨selectPeer s, .shifting, cmd, 0, [], storing⟩ := rfl
  have transfers := smallSteps_shifting cmd [] [] storing (selectPeer s)
  rw [List.nil_append, List.nil_append, List.length_nil] at transfers
  have release : smallStep ⟨(transferBytes cmd (selectPeer s)).2, .shifting, cmd, cmd.length,
        (transferBytes cmd (selectPeer s)).1, storing⟩ =
      ⟨driveSelect true (transferBytes cmd (selectPeer s)).2, .released, cmd, cmd.length,
        (transferBytes cmd (selectPeer s)).1, storing⟩ := by
    simp [smallStep]
  rw [show cmd.length + 5 = 3 + (cmd.length + 2) by omega, smallSteps_add, head, smallSteps_add,
    transfers, smallSteps, release]
  rfl

/-- How many steps an exchange in flight still takes. -/
def stepsLeft (m : InFlight) : Nat :=
  match m.phase with
  | .idle => 0
  | .doHigh => m.latched.length - m.index + 5
  | .clkHigh => m.latched.length - m.index + 4
  | .selected => m.latched.length - m.index + 3
  | .shifting => m.latched.length - m.index + 2
  | .released => 1

/-- XRD's store of the frame makes no event. -/
theorem returnExchange_trace (m : InFlight) :
    (returnExchange m).trace = m.state.trace ++ [.delay m.state.delay.toNat] := by
  unfold returnExchange
  split <;> simp

/-- Each step but those in `Idle` appends one event and leaves one step less. -/
theorem smallStep_progress {m : InFlight} {n : Nat} (left : stepsLeft m = n + 1) :
    stepsLeft (smallStep m) = n ∧ (smallStep m).state.trace.length = m.state.trace.length + 1 := by
  obtain ⟨s, phase, cmd, index, response, storing⟩ := m
  cases phase with
  | idle => cases left
  | doHigh => exact ⟨Nat.succ.inj left, by simp [smallStep]⟩
  | clkHigh => exact ⟨Nat.succ.inj left, by simp [smallStep]⟩
  | selected => exact ⟨Nat.succ.inj left, by simp [smallStep]⟩
  | released => exact ⟨Nat.succ.inj left, by simp [smallStep, returnExchange_trace]⟩
  | shifting =>
    simp only [stepsLeft] at left
    cases byte : cmd[index]? with
    | some b =>
      have inRange := (List.getElem?_eq_some_iff.1 byte).1
      refine ⟨?_, by simp [smallStep, byte, xfer]⟩
      simp only [smallStep, byte, stepsLeft]
      omega
    | none =>
      have past := List.getElem?_eq_none_iff.1 byte
      refine ⟨?_, by simp [smallStep, byte]⟩
      simp only [smallStep, byte, stepsLeft]
      omega

theorem smallSteps_trace_length {n : Nat} {m : InFlight} (enough : n ≤ stepsLeft m) :
    (smallSteps n m).state.trace.length = m.state.trace.length + n := by
  induction n generalizing m with
  | zero => rfl
  | succ n ih =>
    obtain ⟨k, left⟩ : ∃ k, stepsLeft m = k + 1 := ⟨stepsLeft m - 1, by omega⟩
    obtain ⟨fewer, longer⟩ := smallStep_progress left
    rw [smallSteps, ih (by omega), longer]
    omega

/-- Settles O57: the table ends in the exchange, and every step on the way has its event. -/
theorem smallStepsMakeOneExchange : Obligations.SmallStepsMakeOneExchange := by
  unfold Obligations.SmallStepsMakeOneExchange
  intro cmd storing s
  rw [smallSteps_acceptExchange]
  refine ⟨rfl, rfl, rfl, fun n within => ?_⟩
  rw [smallSteps_trace_length (by simpa [stepsLeft, acceptExchange] using within)]
  simp [acceptExchange]

/-! ### The bits of a transfer -/

/-- The levels of DI put into the byte, bit by bit. -/
def placeBits : List Nat → List Bool → Byte → Byte
  | j :: js, di :: later, i => placeBits js later (placeBit i j di)
  | [], _, i => i
  | _, [], i => i

/-- What is received does not depend on what is sent. -/
theorem shiftBits_snd (o : Byte) (js : List Nat) (di : List Bool) (i : Byte) :
    (shiftBits o js di i).2 = placeBits js di i := by
  induction js generalizing di i with
  | nil => simp [shiftBits, placeBits]
  | cons j js ih =>
    cases di with
    | nil => simp [shiftBits, placeBits]
    | cons d later => simp [shiftBits, placeBits, ih]

/-- What is sent is the bits of `o` in the order of shifting, each with four line events. -/
theorem shiftBits_fst (o : Byte) (js : List Nat) (di : List Bool) (i : Byte)
    (same : js.length = di.length) :
    outLevels (shiftBits o js di i).1 = js.map o.getLsbD ∧
      (shiftBits o js di i).1.length = 4 * js.length := by
  induction js generalizing di i with
  | nil => simp [shiftBits, outLevels]
  | cons j js ih =>
    obtain ⟨d, later, rfl⟩ := List.exists_cons_of_length_eq_add_one same.symm
    obtain ⟨levels, count⟩ := ih later (placeBit i j d) (by simpa using same)
    refine ⟨by simp [shiftBits, shiftBit, outLevels, levels], ?_⟩
    simp [shiftBits, shiftBit, count]
    omega

/-- Most significant bit first, the levels of a byte's bits put that byte together. -/
theorem placeBits_msbFirst (i : Byte) :
    placeBits (shiftOrder true) ((List.range 8).map fun j => i.getLsbD (7 - j)) 0 = i := by
  revert i
  decide +kernel

/-- Most significant bit first, the codec image of a byte goes out in the order of that byte's bits. -/
theorem shiftOrder_reverse8 (b : Byte) :
    (shiftOrder true).map (reverse8 b).getLsbD = (List.range 8).map b.getLsbD := by
  revert b
  decide +kernel

/-- Settles O58. -/
theorem bitTransferSendsProtocolBitZeroFirst : Obligations.BitTransferSendsProtocolBitZeroFirst := by
  unfold Obligations.BitTransferSendsProtocolBitZeroFirst
  intro p b i mode msbFirst
  obtain ⟨levels, count⟩ := shiftBits_fst (reverse8 b) (shiftOrder true)
    ((List.range 8).map fun j => i.getLsbD (7 - j)) 0 (by simp [shiftOrder])
  refine ⟨_, ?_, levels.trans (shiftOrder_reverse8 b), count⟩
  have accepted : p.spiMode = 3 ∧ ((List.range 8).map fun j => i.getLsbD (7 - j)).length = 8 :=
    ⟨mode, by simp⟩
  rw [bitTransfer, if_pos accepted, msbFirst]
  exact congrArg some (Prod.ext rfl ((shiftBits_snd _ _ _ _).trans (placeBits_msbFirst i)))

end Sys2Proof.Machine
end

section
/-!
PROOFS. The whole of an accepted INIT (R163, R165): how it ends, how many exchanges it makes, and the bounds
of DELAY.
-/

namespace Sys2Proof.Machine

/-! ### How an INIT ends -/

/-- A write of SESSION makes no event. -/
theorem setSession_evolves (v : Session) (s : State) : Evolves s (setSession v s) [] :=
  (Evolves.refl s).of_registers

/-- The events of CFG (R116). -/
def configureTrace (p : Params) : List Event :=
  [.configure p.pins, .setFrame 8 p.spiMode, .setClock p.clockHz, .line .select true]

@[simp] theorem transferCount_configureTrace (p : Params) : transferCount (configureTrace p) = 0 := rfl

@[simp] theorem exchangeCount_configureTrace (p : Params) : exchangeCount (configureTrace p) = 0 := by
  simp [configureTrace, exchangeCount]

@[simp] theorem busRun_configureTrace (p : Params) :
    busRun .idle (configureTrace p) = some .idle := rfl

/-- INIT's probe phase (R163): CFG's events, then two whole READs with a gap before each. -/
theorem probePhase_spec (s : State) :
    ∃ ev, Evolves s (probePhase s) (configureTrace s.params ++ ev) 2 ∧
      AfterRead s { probePhase s with cfgd := s.cfgd } ∧ (probePhase s).cfgd = true ∧
      busRun .idle ev = some .idle ∧
      2 ≤ exchangeCount ev ∧ 18 ≤ transferCount ev ∧ exchangeCount ev ≤ 46 ∧ transferCount ev ≤ 366 := by
  obtain ⟨calls, regs⟩ := configure_spec (setSession .probing s)
  obtain ⟨ev, reads, after, bus, least, leastBytes, most, mostBytes⟩ :=
    probe_spec 1 (configure (setSession .probing s))
  have cfgd : (probePhase s).cfgd = true := after.cfgd.trans (by simpa using congrArg Registers.cfgd regs)
  exact ⟨ev, ((setSession_evolves .probing s).trans calls).trans reads,
    ⟨after.fwr, after.bwr, after.btn, after.cs, rfl, after.tlast⟩, cfgd, bus, least, leastBytes, most,
    mostBytes⟩

/-- The three ways an INIT ends (R163): the code, the frame, the session. -/
def InitEnd (c : ResultCode) (t : State) : Prop :=
  (c = .noResponse ∧ alive t.frame = false ∧ t.session = .uninitialized) ∨
    (c = .ok ∧ confirmed t.frame = true ∧ t.session = .ready true) ∨
    (c = .modeNegotiationFailed ∧ confirmed t.frame = false ∧ t.session = .uninitialized)

/-- No way of ending leaves INIT in progress. -/
theorem InitEnd.session {c : ResultCode} {t : State} (h : InitEnd c t) :
    t.session = .uninitialized ∨ t.session = .ready true := by
  rcases h with ⟨-, -, h⟩ | ⟨-, -, h⟩ | ⟨-, -, h⟩
  · exact Or.inl h
  · exact Or.inr h
  · exact Or.inl h

theorem InitEnd.isRefusal {c : ResultCode} {t : State} (h : InitEnd c t) : isRefusal c = false := by
  rcases h with ⟨rfl, -, -⟩ | ⟨rfl, -, -⟩ | ⟨rfl, -, -⟩ <;> rfl

/-- The whole of an accepted INIT: its events and what it leaves. -/
structure InitRun (s : State) (c : ResultCode) (t : State) (ev : List Event) : Prop where
  evolves : Evolves s t (configureTrace s.params ++ ev) 2
  fwr : t.fwr = true
  bwr : t.bwr = true
  btn : t.btn = packButtons t.frame[3] t.frame[4]
  cs : t.cs = true
  cfgd : t.cfgd = true
  tlast : t.tlast = t.now
  ending : InitEnd c t
  bus : busRun .idle ev = some .idle
  least : 2 ≤ exchangeCount ev ∧ 18 ≤ transferCount ev
  most : exchangeCount ev ≤ 332 ∧ transferCount ev ≤ 2632
  leastAlive : c ≠ .noResponse → 6 ≤ exchangeCount ev ∧ 50 ≤ transferCount ev

theorem startSession_spec (s : State) : ∃ ev, InitRun s (startSession s).1 (startSession s).2 ev := by
  obtain ⟨ev, evolves, after, cfgd, bus, least, leastBytes, most, mostBytes⟩ := probePhase_spec s
  unfold startSession
  dsimp only
  cases answered : alive (probePhase s).frame with
  | false =>
    exact ⟨ev, evolves.of_registers, after.fwr, after.bwr, after.btn, after.cs, cfgd, after.tlast,
      Or.inl ⟨rfl, answered, rfl⟩, bus, ⟨least, leastBytes⟩, ⟨by omega, by omega⟩,
      fun h => absurd rfl h⟩
  | true =>
    rw [if_pos rfl]
    have start := evolves.of_registers
      (u := setSession .configuringAnalogMode (setDelay delayMin (probePhase s)))
    obtain ⟨ev', loop, after', bus', least', leastBytes', most', mostBytes', ends⟩ :=
      negotiationLoop_spec 10 (setSession .configuringAnalogMode (setDelay delayMin (probePhase s)))
    have all := start.trans loop
    rw [List.append_assoc] at all
    exact ⟨ev ++ ev', all, after'.fwr, after'.bwr, after'.btn, after'.cs, after'.cfgd.trans cfgd,
      after'.tlast, Or.inr ends, busRun_idle_append bus bus',
      ⟨by rw [exchangeCount_append]; omega, by rw [transferCount_append]; omega⟩,
      ⟨by rw [exchangeCount_append]; omega, by rw [transferCount_append]; omega⟩,
      fun _ => ⟨by rw [exchangeCount_append]; omega, by rw [transferCount_append]; omega⟩⟩

/-- Settles O32. -/
theorem initEndsInOneOfThreeWays : Obligations.InitEndsInOneOfThreeWays := by
  unfold Obligations.InitEndsInOneOfThreeWays
  intro s usable
  obtain ⟨ev, run⟩ := startSession_spec s
  exact ⟨_, _, ev, exec_init_accepted usable, run.evolves, run.fwr, run.bwr, run.btn, run.cs, run.cfgd,
    run.tlast, run.ending⟩

/-- Settles O36: CFG's events are no exchange. -/
theorem initMakesABoundedNumberOfExchanges : Obligations.InitMakesABoundedNumberOfExchanges := by
  unfold Obligations.InitMakesABoundedNumberOfExchanges
  intro s usable
  obtain ⟨ev, run⟩ := startSession_spec s
  obtain ⟨least, leastBytes⟩ := run.least
  obtain ⟨most, mostBytes⟩ := run.most
  refine ⟨_, _, _, exec_init_accepted usable, run.evolves.trace, ?_⟩
  simp only [exchangeCount_append, transferCount_append, exchangeCount_configureTrace,
    transferCount_configureTrace, Nat.zero_add]
  exact ⟨least, leastBytes, most, mostBytes, run.leastAlive⟩

/-! ### DELAY inside READ and INIT -/

/-- Below 255, one more is one more. -/
theorem toNat_add_one {d : Byte} (room : d.toNat < 255) : (d + 1).toNat = d.toNat + 1 := by
  rw [BitVec.toNat_add]
  exact Nat.mod_eq_of_lt (by change d.toNat + 1 < 256; omega)

/-- What a miss makes of DELAY (R162). -/
def raisedBelowCap (d : Nat) : Nat := if d < 10 then d + 1 else d

/-- A READ that succeeds leaves DELAY. -/
theorem readOnce_delay_of_valid {s : State} (h : valid (readOnce s).2.frame = true) :
    (readOnce s).2.delay = s.delay := by
  simp [readOnce_delay, h]

/-- A READ that misses raises DELAY below the ceiling. -/
theorem readOnce_delay_of_invalid {s : State} (h : valid (readOnce s).2.frame = false) :
    (readOnce s).2.delay.toNat = raisedBelowCap s.delay.toNat := by
  have below : s.delay < delayCap ↔ s.delay.toNat < 10 := Iff.rfl
  rw [readOnce_delay, h, raisedBelowCap]
  simp only [Bool.not_false, Bool.true_and, decide_eq_true_eq, below]
  split
  · exact toNat_add_one (by omega)
  · rfl

/-- A READ leaves DELAY or raises it by one below the ceiling. -/
theorem readOnce_delay_bounds (s : State) :
    (readOnce s).2.delay.toNat = s.delay.toNat ∨
      s.delay.toNat < 10 ∧ (readOnce s).2.delay.toNat = s.delay.toNat + 1 := by
  cases ok : valid (readOnce s).2.frame with
  | true => exact Or.inl (congrArg BitVec.toNat (readOnce_delay_of_valid ok))
  | false =>
    have raised := readOnce_delay_of_invalid ok
    unfold raisedBelowCap at raised
    split at raised <;> omega

/-- INIT's increment (R163, D12), below 255. -/
theorem raiseDelay_delay {s : State} (room : s.delay.toNat < 255) :
    (raiseDelay s).delay.toNat =
      if s.params.initIncUncapped = true ∨ s.delay.toNat < 10 then s.delay.toNat + 1
      else s.delay.toNat := by
  have below : s.delay < delayCap ↔ s.delay.toNat < 10 := Iff.rfl
  unfold raiseDelay
  simp only [Bool.or_eq_true, decide_eq_true_eq, below]
  split
  · exact toNat_add_one room
  · rfl

theorem negotiate_delay (s : State) : (negotiate s).delay = s.delay :=
  registers_delay (negotiate_spec s).2

theorem negotiate_params (s : State) : (negotiate s).params = s.params :=
  (negotiate_spec s).1.params

theorem readOnce_params (s : State) : (readOnce s).2.params = s.params := by
  obtain ⟨-, ev, evolves, -⟩ := readOnce_spec s
  exact evolves.params

/-- DELAY with so many attempts of INIT to go after this one, such that it stays in its bounds: uncapped,
each attempt raises it by one and by one more while it is below 10 (R166). -/
def DelayFits (p : Params) (left d : Nat) : Prop :=
  1 ≤ d ∧ if p.initIncUncapped then d + left + (11 - d) / 2 ≤ 16 else d ≤ 10

/-- At the last attempt a READ still ends within the ceiling. -/
theorem DelayFits.last {p : Params} {left d d' : Nat} (h : DelayFits p left d)
    (read : d' = d ∨ d < 10 ∧ d' = d + 1) : 1 ≤ d' ∧ d' ≤ delayCeiling p := by
  unfold DelayFits delayCeiling at *
  split <;> simp_all <;> omega

/-- A READ and INIT's increment leave room for the attempts to go. -/
theorem DelayFits.next {p : Params} {left d d' : Nat} (h : DelayFits p (left + 1) d)
    (read : d' = d ∨ d < 10 ∧ d' = d + 1) :
    d' < 255 ∧ DelayFits p left (if p.initIncUncapped = true ∨ d' < 10 then d' + 1 else d') := by
  unfold DelayFits at *
  by_cases uncapped : p.initIncUncapped = true
  · simp only [uncapped, if_true, true_or] at h ⊢
    omega
  · simp only [Bool.eq_false_of_not_eq_true uncapped, Bool.false_eq_true, if_false, false_or] at h ⊢
    split <;> omega

/-- DELAY stays in its bounds over the negotiation loop (R166). -/
theorem negotiationLoop_delay : ∀ (left : Nat) (s : State), DelayFits s.params left s.delay.toNat →
    1 ≤ (negotiationLoop (left + 1) s).2.delay.toNat ∧
      (negotiationLoop (left + 1) s).2.delay.toNat ≤ delayCeiling s.params := by
  intro left
  induction left with
  | zero =>
    intro s fits
    have read := readOnce_delay_bounds (negotiate s)
    rw [negotiate_delay] at read
    simp only [negotiationLoop, ne_eq, not_true_eq_false, if_false]
    split
    · exact fits.last read
    · exact fits.last read
  | succ left ih =>
    intro s fits
    have read := readOnce_delay_bounds (negotiate s)
    rw [negotiate_delay] at read
    have params : (readOnce (negotiate s)).2.params = s.params := by
      rw [readOnce_params, negotiate_params]
    obtain ⟨room, fits'⟩ := fits.next read
    rw [← params, ← raiseDelay_delay room] at fits'
    rw [negotiationLoop]
    split
    · exact fits.last read
    · rw [if_pos (Nat.succ_ne_zero left), ← params]
      have later := ih (raiseDelay (readOnce (negotiate s)).2)
      rw [raiseDelay_params] at later
      exact later fits'

/-- INIT's READs of the probe phase keep DELAY within a ceiling of at least 10. -/
theorem probe_delay (n : Nat) (s : State) {ceiling : Nat} (cap : 10 ≤ ceiling)
    (least : 1 ≤ s.delay.toNat) (most : s.delay.toNat ≤ ceiling) :
    1 ≤ (probe n s).delay.toNat ∧ (probe n s).delay.toNat ≤ ceiling := by
  induction n generalizing s with
  | zero => exact ⟨least, most⟩
  | succ n ih =>
    have read := readOnce_delay_bounds (elapse 0 s)
    rw [elapse_delay] at read
    exact ih (readOnce (elapse 0 s)).2 (by omega) (by omega)

/-- DELAY stays in its bounds over an INIT (R35, R166). -/
theorem startSession_delay {s : State} (least : 1 ≤ s.delay.toNat)
    (most : s.delay.toNat ≤ delayCeiling s.params) :
    1 ≤ (startSession s).2.delay.toNat ∧ (startSession s).2.delay.toNat ≤ delayCeiling s.params := by
  have cap : 10 ≤ delayCeiling s.params := by
    unfold delayCeiling
    split <;> omega
  have delay : (configure (setSession .probing s)).delay = s.delay := by
    simpa using congrArg Registers.delay (configure_spec (setSession .probing s)).2
  unfold startSession
  dsimp only
  split
  · have params : (probePhase s).params = s.params := by
      obtain ⟨ev, evolves, -⟩ := probePhase_spec s
      exact evolves.params
    have fits : DelayFits (probePhase s).params 10 1 := by
      refine ⟨Nat.le_refl 1, ?_⟩
      split <;> omega
    rw [← params]
    exact negotiationLoop_delay 10
      (setSession .configuringAnalogMode (setDelay delayMin (probePhase s))) fits
  · exact probe_delay probeReads _ cap (by rwa [delay]) (by rwa [delay])

end Sys2Proof.Machine
end

section
/-!
PROOFS. Everything an operation can do, said once (`exec_ends`): it is refused and only its code is returned,
or it runs, makes its events and writes its registers.  From this: results, refusals, time, the bus
discipline and the writers of each register.
-/

namespace Sys2Proof.Machine

/-! ### What each operation writes -/

/-- What a READ that runs does to the registers (R162). -/
structure ReadWrites (s t : State) : Prop where
  session : s.session ≠ .uninitialized
  configured : s.cfgd = true
  regs : ∃ ok, registers t =
    { registers s with
      frame := t.frame, fwr := true, btn := t.btn, bwr := true, cs := true, delay := t.delay
      session := sessionAfterRead ok s.session, tlast := t.now }
  delay : t.delay.toNat = s.delay.toNat ∨ s.delay.toNat < 10 ∧ t.delay.toNat = s.delay.toNat + 1

/-- What an INIT that runs leaves in the registers (R163). -/
structure InitWrites (s t : State) : Prop where
  fwr : t.fwr = true
  bwr : t.bwr = true
  cs : t.cs = true
  cfgd : t.cfgd = true
  tlast : t.tlast = t.now
  session : t.session = .uninitialized ∨ t.session = .ready true
  delay : 1 ≤ s.delay.toNat → s.delay.toNat ≤ delayCeiling s.params →
    1 ≤ t.delay.toNat ∧ t.delay.toNat ≤ delayCeiling s.params

/-- The registers an operation that runs writes; every other one stands. -/
def Writes (s t : State) : Instr → Prop
  | .rev _ => registers t = registers s
  | .btn _ => registers t = registers s
  | .axis _ => registers t = registers s
  | .rdreg _ => registers t = registers s
  | .xchg _ => registers t = { registers s with cs := true }
  | .xent => registers t = { registers s with cs := true }
  | .xset => registers t = { registers s with cs := true }
  | .xext => registers t = { registers s with cs := true }
  | .neg => registers t = { registers s with cs := true }
  | .xrd => registers t = { registers s with frame := t.frame, fwr := true, cs := true }
  | .dec => registers t = { registers s with btn := t.btn, bwr := s.fwr }
  | .wrreg _ _ => registers t = { registers s with delay := t.delay } ∧
      1 ≤ t.delay.toNat ∧ t.delay.toNat ≤ 10
  | .cfg => registers t = { registers s with cs := true, cfgd := true }
  | .read => ReadWrites s t
  | .init => InitWrites s t

/-- What an operation that runs does: its events, the gaps between them, and its writes. -/
structure Runs (i : Instr) (s t : State) : Prop where
  events : ∃ ev gaps, Evolves { s with freeDraws := t.freeDraws } t ev gaps ∧
    (gaps = 0 ∨ i = .init ∧ gaps = 2) ∧ busRun .idle ev = some .idle
  writes : Writes s t i

/-- The three ways an operation ends (R200): refused, completed with its data bytes, or with an error. -/
inductive Ends (i : Instr) (s : State) : State → Prop
  | refused (c : ResultCode) (refusal : isRefusal c = true) : Ends i s (endWith c s)
  | completed (data : List Byte) (t : State) (count : data.length = dataBytes i) (runs : Runs i s t) :
      Ends i s (complete data t)
  | failed (c : ResultCode) (t : State) (error : c ≠ .ok) (accepted : isRefusal c = false)
      (runs : Runs i s t) : Ends i s (endWith c t)

/-! ### Each operation ends in one of them -/

/-- An operation that makes events without gaps and draws no free value. -/
theorem Runs.of_evolves {i : Instr} {s t : State} {ev : List Event} (evolves : Evolves s t ev)
    (bus : busRun .idle ev = some .idle) (writes : Writes s t i) : Runs i s t where
  events := ⟨ev, 0, by rw [evolves.freeDraws]; exact evolves, Or.inl rfl, bus⟩
  writes := writes

/-- An operation that changes at most the free values drawn. -/
theorem Runs.of_draws {i : Instr} {s : State} (n : Nat) (writes : Writes s { s with freeDraws := n } i) :
    Runs i s { s with freeDraws := n } where
  events := ⟨[], 0, Evolves.refl _, Or.inl rfl, rfl⟩
  writes := writes

/-- A read of FRAME changes at most the free values drawn (log 4). -/
theorem memRead_draws (i : Fin 9) (s : State) : ∃ n, (memRead i s).2 = { s with freeDraws := n } := by
  unfold memRead
  split
  · exact ⟨s.freeDraws, rfl⟩
  · exact ⟨s.freeDraws + 1, rfl⟩

theorem readBtn_draws (s : State) : ∃ n, (readBtn s).2 = { s with freeDraws := n } := by
  unfold readBtn
  split
  · exact ⟨s.freeDraws, rfl⟩
  · exact ⟨s.freeDraws + 1, rfl⟩

theorem readRegister_draws (name : RegisterName) (s : State) :
    ∃ n, (readRegister name s).2 = { s with freeDraws := n } := by
  cases name with
  | status => exact memRead_draws modeIndex s
  | delay => exact ⟨s.freeDraws, rfl⟩
  | btnLow => exact readBtn_draws s
  | btnHigh => exact readBtn_draws s
  | frame i => exact memRead_draws i s

/-- An exchange that stores nothing, of 1 to 9 bytes. -/
theorem answerExchange_ends {i : Instr} (cmd : List Byte) (s : State) (least : 1 ≤ cmd.length)
    (most : cmd.length ≤ 9) (count : cmd.length = dataBytes i)
    (writes : ∀ t, registers t = { registers s with cs := true } → Writes s t i) :
    Ends i s (answerExchange cmd s) := by
  cases configured : s.cfgd with
  | false =>
    rw [answerExchange_unconfigured cmd configured]
    exact .refused _ rfl
  | true =>
    obtain ⟨t, answer, evolves, regs⟩ := answerExchange_spec cmd configured
    rw [answer]
    refine .completed _ t (by simpa [protocolFrom] using count) (.of_evolves evolves ?_ (writes t regs))
    exact busRun_exchangeTrace _ _ _ (by simp) (by simpa using least) (by simpa using most)

theorem execRead_ends (s : State) : ∃ t, exec .read s = .next t ∧ Ends .read s t := by
  by_cases session : s.session = .uninitialized
  · exact ⟨_, exec_read_noSession session, .refused _ rfl⟩
  cases configured : s.cfgd with
  | false => exact ⟨_, exec_read_unconfigured session configured, .refused _ rfl⟩
  | true =>
    obtain ⟨-, ev, evolves, regs, bus, -⟩ := readOnce_spec s
    have runs : Runs .read s (readOnce s).2 := by
      refine .of_evolves evolves bus ⟨session, configured, ⟨(readOnce s).1, ?_⟩, readOnce_delay_bounds s⟩
      have btn : (readOnce s).2.btn = _ := congrArg Registers.btn regs
      have delay : (readOnce s).2.delay = _ := congrArg Registers.delay regs
      rw [btn, delay, regs]
    refine ⟨_, exec_read_accepted session configured, ?_⟩
    cases (readOnce s).1 with
    | true => exact .completed [] _ rfl runs
    | false => exact .failed .readMiss _ (by decide) rfl runs

theorem execInit_ends (s : State) : ∃ t, exec .init s = .next t ∧ Ends .init s t := by
  cases usable : s.params.pinsUsable with
  | false => exact ⟨_, exec_init_badConfig usable, .refused _ rfl⟩
  | true =>
    obtain ⟨ev, run⟩ := startSession_spec s
    have runs : Runs .init s (startSession s).2 := by
      refine ⟨⟨_, 2, ?_, Or.inr ⟨rfl, rfl⟩, busRun_idle_append (busRun_configureTrace s.params) run.bus⟩,
        run.fwr, run.bwr, run.cs, run.cfgd, run.tlast, run.ending.session, startSession_delay⟩
      rw [run.evolves.freeDraws]
      exact run.evolves
    refine ⟨_, exec_init_accepted usable, ?_⟩
    by_cases ok : (startSession s).1 = .ok
    · rw [ok]
      exact .completed [] _ rfl runs
    · exact .failed _ _ ok run.ending.isRefusal runs

theorem execWrreg_ends (r : Nibble) (v : Byte) (s : State) :
    ∃ t, exec (.wrreg r v) s = .next t ∧ Ends (.wrreg r v) s t := by
  by_cases index : r = 1
  · subst index
    by_cases illegal : v.toNat = 0 ∨ 10 < v.toNat
    · exact ⟨_, exec_wrreg_badValue s illegal, .refused _ rfl⟩
    · have legal : 1 ≤ v.toNat ∧ v.toNat ≤ 10 := by omega
      exact ⟨_, exec_wrreg_accepted s legal.1 legal.2, .completed [] (setDelay v s) rfl
        (.of_evolves (Evolves.refl s).of_registers rfl ⟨rfl, legal⟩)⟩
  · exact ⟨_, exec_wrreg_badIndex v s index, .refused _ rfl⟩

theorem execXchg_ends (cmd : List Byte) (s : State) :
    ∃ t, exec (.xchg cmd) s = .next t ∧ Ends (.xchg cmd) s t := by
  by_cases illegal : cmd.length = 0 ∨ 9 < cmd.length
  · exact ⟨_, exec_xchg_badLength s illegal, .refused _ rfl⟩
  · exact ⟨_, exec_xchg_accepted s (by omega) (by omega),
      answerExchange_ends cmd s (by omega) (by omega) rfl fun _ regs => regs⟩

theorem execXrd_ends (s : State) : ∃ t, exec .xrd s = .next t ∧ Ends .xrd s t := by
  cases configured : s.cfgd with
  | false => exact ⟨_, exec_xrd_unconfigured configured, .refused _ rfl⟩
  | true =>
    obtain ⟨response, evolves, regs⟩ := readDataExchange_spec s
    have frame : (readDataExchange s).2.frame = _ := congrArg Registers.frame regs
    refine ⟨_, exec_xrd_accepted configured, .completed _ _ ?_ (.of_evolves evolves (by simp) ?_)⟩
    · rw [response]
      simp [protocolFrom, dataBytes]
    · rw [Writes, frame, regs]

theorem execAxis_ends (a : Nibble) (s : State) : ∃ t, exec (.axis a) s = .next t ∧ Ends (.axis a) s t := by
  cases index : axisIndex a with
  | none => exact ⟨_, exec_axis_badIndex s index, .refused _ rfl⟩
  | some i =>
    obtain ⟨n, drawn⟩ := memRead_draws i s
    exact ⟨_, exec_axis_named s index, .completed _ _ rfl (drawn ▸ .of_draws n rfl)⟩

theorem execRdreg_ends (r : Nibble) (s : State) :
    ∃ t, exec (.rdreg r) s = .next t ∧ Ends (.rdreg r) s t := by
  cases named : registerName r with
  | none => exact ⟨_, exec_rdreg_reserved s named, .refused _ rfl⟩
  | some name =>
    obtain ⟨n, drawn⟩ := readRegister_draws name s
    exact ⟨_, exec_rdreg_named s named, .completed _ _ rfl (drawn ▸ .of_draws n rfl)⟩

theorem execCfg_ends (s : State) : ∃ t, exec .cfg s = .next t ∧ Ends .cfg s t := by
  cases usable : s.params.pinsUsable with
  | false => exact ⟨_, exec_cfg_badConfig usable, .refused _ rfl⟩
  | true =>
    obtain ⟨evolves, regs⟩ := configure_spec s
    exact ⟨_, exec_cfg_accepted usable, .completed [] _ rfl (.of_evolves evolves rfl regs)⟩

theorem execNeg_ends (s : State) : ∃ t, exec .neg s = .next t ∧ Ends .neg s t := by
  by_cases barred : s.params.negNeedsSession = true ∧ s.session = .uninitialized
  · exact ⟨_, exec_neg_noSession barred.1 barred.2, .refused _ rfl⟩
  · have available : NegAvailable s := fun needed none => barred ⟨needed, none⟩
    cases configured : s.cfgd with
    | false => exact ⟨_, exec_neg_unconfigured available configured, .refused _ rfl⟩
    | true =>
      obtain ⟨evolves, regs⟩ := negotiate_spec s
      exact ⟨_, exec_neg_accepted available configured,
        .completed [] _ rfl (.of_evolves evolves (busRun_negTrace s 0) regs)⟩

/-- Every operation ends in one of the three ways. -/
theorem exists_ends (i : Instr) (s : State) : ∃ t, exec i s = .next t ∧ Ends i s t := by
  cases i with
  | rev v => exact ⟨_, rfl, .completed [reverse8 v] s rfl (.of_evolves (Evolves.refl s) rfl rfl)⟩
  | xchg cmd => exact execXchg_ends cmd s
  | xent => exact ⟨_, exec_xent s, answerExchange_ends _ s (by decide) (by decide) rfl fun _ regs => regs⟩
  | xset => exact ⟨_, exec_xset s, answerExchange_ends _ s (by decide) (by decide) rfl fun _ regs => regs⟩
  | xext => exact ⟨_, exec_xext s, answerExchange_ends _ s (by decide) (by decide) rfl fun _ regs => regs⟩
  | xrd => exact execXrd_ends s
  | dec =>
    obtain ⟨evolves, regs⟩ := decodeButtons_spec s
    exact ⟨_, exec_dec s, .completed [] _ rfl ⟨⟨[], 0, evolves, Or.inl rfl, rfl⟩, regs⟩⟩
  | btn k =>
    obtain ⟨n, drawn⟩ := readBtn_draws s
    exact ⟨_, exec_btn k s, .completed _ _ rfl (drawn ▸ .of_draws n rfl)⟩
  | axis a => exact execAxis_ends a s
  | rdreg r => exact execRdreg_ends r s
  | wrreg r v => exact execWrreg_ends r v s
  | cfg => exact execCfg_ends s
  | neg => exact execNeg_ends s
  | read => exact execRead_ends s
  | init => exact execInit_ends s

theorem exec_ends {i : Instr} {s t : State} (run : exec i s = .next t) : Ends i s t := by
  obtain ⟨u, run', ends⟩ := exists_ends i s
  rw [run] at run'
  obtain rfl := Host.Outcome.next.inj run'
  exact ends

end Sys2Proof.Machine
end

section
/-!
PROOFS. Results and refusals (R79, R205).
-/

namespace Sys2Proof.Machine

/-- An operation that runs has not returned its result yet. -/
theorem Runs.hostOut {i : Instr} {s t : State} (h : Runs i s t) : t.hostOut = s.hostOut := by
  obtain ⟨ev, gaps, evolves, -⟩ := h.events
  exact evolves.hostOut

/-- Settles O5. -/
theorem everyOperationReturnsOneResult : Obligations.EveryOperationReturnsOneResult := by
  unfold Obligations.EveryOperationReturnsOneResult
  intro i s t run
  cases exec_ends run with
  | refused c refusal =>
    refine ⟨c, [], rfl, ?_, fun _ => rfl⟩
    rintro rfl
    cases refusal
  | completed data u count runs =>
    exact ⟨.ok, data, by rw [complete_hostOut, runs.hostOut], fun _ => count, fun h => absurd rfl h⟩
  | failed c u error accepted runs =>
    exact ⟨c, [], by rw [endWith_hostOut, runs.hostOut], fun ok => absurd ok error, fun _ => rfl⟩

/-- The code that a code byte carries. -/
def codeFrom (b : Byte) : ResultCode :=
  ([.ok, .noResponse, .modeNegotiationFailed, .readMiss, .reservedOp, .badLength, .badIndex, .badValue,
    .noSession, .badConfig, .notConfigured].find? fun c => codeByte c == b).getD .ok

theorem codeFrom_codeByte (c : ResultCode) : codeFrom (codeByte c) = c := by
  cases c <;> rfl

/-- R206: no two codes share a number. -/
theorem codeByte_injective : Function.Injective codeByte :=
  Function.LeftInverse.injective codeFrom_codeByte

/-- Settles O6: the code byte says which code it was, and only a refused operation returns a refusal. -/
theorem refusedOperationsChangeNothing : Obligations.RefusedOperationsChangeNothing := by
  unfold Obligations.RefusedOperationsChangeNothing
  intro i s t c run refusal out
  cases exec_ends run with
  | refused c' refusal' =>
    rw [endWith_hostOut, List.append_cancel_left_eq, List.singleton_inj] at out
    rw [codeByte_injective out]
  | completed data u count runs =>
    rw [complete_hostOut, runs.hostOut, List.append_cancel_left_eq, List.cons.injEq] at out
    rw [← codeByte_injective out.1] at refusal
    cases refusal
  | failed c' u error accepted runs =>
    rw [endWith_hostOut, runs.hostOut, List.append_cancel_left_eq, List.singleton_inj] at out
    rw [← codeByte_injective out, accepted] at refusal
    cases refusal

end Sys2Proof.Machine
end

section
/-!
PROOFS. Events, time and the record over operations and steps (R10, R212, R242).
-/

namespace Sys2Proof.Machine

/-- What has been returned to HOST plays no part in an evolution. -/
theorem Evolves.with_hostOut {s t : State} {ev : List Event} {gaps : Nat} (h : Evolves s t ev gaps)
    (out : List Byte) : Evolves { s with hostOut := out } { t with hostOut := out } ev gaps where
  trace := h.trace
  received := h.received
  answers := h.answers
  now := h.now
  ticks := h.ticks
  params := h.params
  hostIn := h.hostIn
  hostOut := rfl
  freeDraws := h.freeDraws

/-- An operation is its events, which keep the bus discipline, and its result. -/
theorem exec_events {i : Instr} {s t : State} (run : exec i s = .next t) :
    ∃ ev gaps, (gaps = 0 ∨ i = .init ∧ gaps = 2) ∧
      Evolves { s with freeDraws := t.freeDraws, hostOut := t.hostOut } t ev gaps ∧
      busRun .idle ev = some .idle ∧ s.hostOut <+: t.hostOut := by
  have ran : ∀ (u : State) (result : List Byte), Runs i s u →
      ∃ ev gaps, (gaps = 0 ∨ i = .init ∧ gaps = 2) ∧
        Evolves { s with freeDraws := u.freeDraws, hostOut := u.hostOut ++ result }
          { u with hostOut := u.hostOut ++ result } ev gaps ∧
        busRun .idle ev = some .idle ∧ s.hostOut <+: u.hostOut ++ result := by
    intro u result runs
    obtain ⟨ev, gaps, evolves, few, bus⟩ := runs.events
    exact ⟨ev, gaps, few, evolves.with_hostOut _, bus, runs.hostOut ▸ ⟨_, rfl⟩⟩
  cases exec_ends run with
  | refused c refusal =>
    exact ⟨[], 0, Or.inl rfl, (Evolves.refl s).with_hostOut _, rfl, ⟨_, rfl⟩⟩
  | completed data u count runs => exact ran u _ runs
  | failed c u error accepted runs => exact ran u _ runs

/-- Settles O50. -/
theorem everyOperationIsItsEvents : Obligations.EveryOperationIsItsEvents := by
  unfold Obligations.EveryOperationIsItsEvents
  intro i s t run
  obtain ⟨ev, gaps, few, evolves, -⟩ := exec_events run
  exact ⟨ev, gaps, few, evolves⟩

/-- What an evolution says of the record. -/
theorem Evolves.now_le {s t : State} {ev : List Event} {gaps : Nat} (h : Evolves s t ev gaps) :
    s.now ≤ t.now := by
  rw [h.now]
  omega

/-- The gap before a command: time passes, and of the record only the bytes taken are gone. -/
theorem now_le_takeCommand (rest : List Byte) (s : State) : s.now ≤ (takeCommand rest s).now := by
  rw [takeCommand, now_elapse]
  exact Nat.le_trans (Nat.le_add_right _ 0) (Nat.le_add_right _ _)

/-- The bytes left over by the decoder are the tail of those it was given. -/
theorem decode_command_suffix {bytes rest : List Byte} {i : Instr} (read : decode bytes = .command i rest) :
    rest <:+ bytes := by
  obtain ⟨c, data, rfl, -⟩ := decode_eq_command read
  exact List.suffix_append (c :: data) rest

theorem decode_reservedOp_suffix {bytes rest : List Byte} (refused : decode bytes = .reservedOp rest) :
    rest <:+ bytes := by
  obtain ⟨c, data, rfl⟩ := decode_eq_reservedOp refused
  exact List.suffix_append (c :: data) rest

/-- The three things a step can be: nothing, a refused command, an operation after its gap. -/
theorem step_cases {s t : State} (run : step s = .next t) :
    t = s ∨
    (∃ rest, rest <:+ s.hostIn ∧ t = endWith .reservedOp (takeCommand rest s)) ∨
    ∃ i rest, rest <:+ s.hostIn ∧ exec i (takeCommand rest s) = .next t := by
  cases found : decode s.hostIn with
  | waiting =>
    rw [step_eq_self_of_decode_waiting found] at run
    exact Or.inl (Host.Outcome.next.inj run).symm
  | reservedOp rest =>
    rw [step_of_decode_reservedOp found] at run
    exact Or.inr (Or.inl ⟨rest, decode_reservedOp_suffix found, (Host.Outcome.next.inj run).symm⟩)
  | command i rest =>
    rw [step_of_decode_command found] at run
    exact Or.inr (Or.inr ⟨i, rest, decode_command_suffix found, run⟩)

/-- Settles O51. -/
theorem stepsOnlyExtendTheRecord : Obligations.StepsOnlyExtendTheRecord := by
  unfold Obligations.StepsOnlyExtendTheRecord
  intro s t run
  rcases step_cases run with rfl | ⟨rest, taken, rfl⟩ | ⟨i, rest, taken, run⟩
  · exact ⟨⟨[], List.append_nil _⟩, ⟨[], List.append_nil _⟩, List.suffix_rfl, Nat.le_refl _, rfl⟩
  · refine ⟨by simp, by simp, by simpa using taken, now_le_takeCommand rest s, by simp⟩
  · obtain ⟨ev, gaps, -, evolves, -, out⟩ := exec_events run
    have trace : t.trace = s.trace ++ ev := by simpa using evolves.trace
    refine ⟨⟨ev, trace.symm⟩, by simpa using out, ?_, ?_, by simpa using evolves.params⟩
    · rw [evolves.hostIn]
      simpa using taken
    · exact Nat.le_trans (now_le_takeCommand rest s) evolves.now_le

/-- Settles O52. -/
theorem everyStepKeepsTheBusDiscipline : Obligations.EveryStepKeepsTheBusDiscipline := by
  unfold Obligations.EveryStepKeepsTheBusDiscipline
  intro s t run
  rcases step_cases run with rfl | ⟨rest, -, rfl⟩ | ⟨i, rest, -, run⟩
  · exact ⟨[], by simp, rfl⟩
  · exact ⟨[], by simp, rfl⟩
  · obtain ⟨ev, gaps, -, evolves, bus, -⟩ := exec_events run
    exact ⟨ev, by simpa using evolves.trace, bus⟩

end Sys2Proof.Machine
end

section
/-!
PROOFS. The registers over operations (R20, R26, R28): who writes each, how DELAY and SESSION move, and what
is left after an INIT that failed.
-/

namespace Sys2Proof.Machine

/-- The nine registers one by one. -/
theorem registers_eq_iff {t : State} {r : Registers} :
    registers t = r ↔ t.frame = r.frame ∧ t.fwr = r.fwr ∧ t.btn = r.btn ∧ t.bwr = r.bwr ∧
      t.delay = r.delay ∧ t.cs = r.cs ∧ t.cfgd = r.cfgd ∧ t.session = r.session ∧ t.tlast = r.tlast := by
  cases r
  simp [registers]

/-- The registers an operation leaves are those it left before it returned its result, and a refused
operation left them all. -/
theorem exec_registers {i : Instr} {s t : State} (run : exec i s = .next t) :
    registers t = registers s ∨ ∃ u, Runs i s u ∧ registers t = registers u := by
  cases exec_ends run with
  | refused c refusal => exact Or.inl rfl
  | completed data u count runs => exact Or.inr ⟨u, runs, rfl⟩
  | failed c u error accepted runs => exact Or.inr ⟨u, runs, rfl⟩

/-- Settles O53: of each operation the registers its row of `Writes` does not name stand. -/
theorem registersChangeOnlyByTheirWriters : Obligations.RegistersChangeOnlyByTheirWriters := by
  unfold Obligations.RegistersChangeOnlyByTheirWriters
  intro i s t run
  rcases exec_registers run with same | ⟨u, runs, same⟩
  · have stands := registers_eq_iff.1 same
    simp [stands]
  · have writes := runs.writes
    cases i
    case wrreg =>
      have stands := registers_eq_iff.1 (same.trans writes.1)
      simp [stands]
    case read =>
      obtain ⟨ok, regs⟩ := writes.regs
      have stands := registers_eq_iff.1 (same.trans regs)
      simp [stands]
    case init => simp
    all_goals
      have stands := registers_eq_iff.1 (same.trans writes)
      simp [stands]

/-- DELAY where an operation's row of `Writes` leaves it alone. -/
theorem Writes.delay_of_not_writer {i : Instr} {s t : State} (h : Writes s t i) (read : i ≠ .read)
    (init : i ≠ .init) (wrreg : ∀ r v, i ≠ .wrreg r v) : t.delay = s.delay := by
  cases i
  case read => exact absurd rfl read
  case init => exact absurd rfl init
  case wrreg r v => exact absurd rfl (wrreg r v)
  all_goals exact congrArg Registers.delay h

/-- Settles O54: of the operations left only READ writes DELAY, and it raises it by at most one. -/
theorem delayFallsOnlyByInitOrWrreg : Obligations.DelayFallsOnlyByInitOrWrreg := by
  unfold Obligations.DelayFallsOnlyByInitOrWrreg
  intro i s t run init wrreg
  rcases exec_registers run with same | ⟨u, runs, same⟩
  · have delay : t.delay = s.delay := congrArg Registers.delay same
    rw [delay]
    omega
  · have delay : t.delay = u.delay := congrArg Registers.delay same
    rw [delay]
    by_cases read : i = .read
    · subst read
      have raised := runs.writes.delay
      omega
    · rw [runs.writes.delay_of_not_writer read init wrreg]
      omega

/-- SESSION where an operation's row of `Writes` leaves it alone. -/
theorem Writes.session_of_not_writer {i : Instr} {s t : State} (h : Writes s t i) (read : i ≠ .read)
    (init : i ≠ .init) : t.session = s.session := by
  cases i
  case read => exact absurd rfl read
  case init => exact absurd rfl init
  case wrreg => exact congrArg Registers.session h.1
  all_goals exact congrArg Registers.session h

/-- A READ changes SESSION only between the two Ready states (R28). -/
theorem inSession_of_sessionAfterRead_ne {ok : Bool} {v : Session} (h : sessionAfterRead ok v ≠ v) :
    inSession v = true ∧ inSession (sessionAfterRead ok v) = true := by
  cases v with
  | ready analogOk => exact ⟨rfl, rfl⟩
  | uninitialized => exact absurd rfl h
  | probing => exact absurd rfl h
  | configuringAnalogMode => exact absurd rfl h

/-- Settles O55. -/
theorem sessionMovesOnlyByTheTable : Obligations.SessionMovesOnlyByTheTable := by
  unfold Obligations.SessionMovesOnlyByTheTable
  intro i s t run moved
  rcases exec_registers run with same | ⟨u, runs, same⟩
  · exact absurd (congrArg Registers.session same) moved
  · have session : t.session = u.session := congrArg Registers.session same
    rw [session] at moved ⊢
    by_cases read : i = .read
    · subst read
      obtain ⟨ok, regs⟩ := runs.writes.regs
      have after : u.session = sessionAfterRead ok s.session := congrArg Registers.session regs
      rw [after] at moved ⊢
      exact Or.inl ⟨rfl, inSession_of_sessionAfterRead_ne moved⟩
    · by_cases init : i = .init
      · subst init
        exact Or.inr ⟨rfl, runs.writes.session⟩
      · exact absurd (runs.writes.session_of_not_writer read init) moved

/-! ### After a failed INIT -/

/-- Settles O59: what INIT leaves in CFGD and SESSION decides what is accepted after it. -/
theorem layerTwoAfterAFailedInit : Obligations.LayerTwoAfterAFailedInit := by
  unfold Obligations.LayerTwoAfterAFailedInit
  refine ⟨fun s => exec_neg_noSession, fun s t usable run none => ?_⟩
  obtain ⟨ev, init⟩ := startSession_spec s
  rw [exec_init_accepted usable] at run
  obtain rfl := Host.Outcome.next.inj run
  have configured : (endWith (startSession s).1 (startSession s).2).cfgd = true := init.cfgd
  have params : (endWith (startSession s).1 (startSession s).2).params = s.params := init.evolves.params
  generalize endWith (startSession s).1 (startSession s).2 = t at none configured params ⊢
  refine ⟨configured, exec_read_noSession none, fun free => ?neg,
    fun needed => exec_neg_noSession needed none, ?again⟩
  case neg =>
    have available : NegAvailable t := fun needed => absurd (free.symm.trans needed) Bool.false_ne_true
    exact ⟨negotiate t, exec_neg_accepted available configured, negotiate_spec t⟩
  case again =>
    obtain ⟨ev', init'⟩ := startSession_spec t
    exact ⟨_, _, exec_init_accepted (params ▸ usable), init'.ending.isRefusal⟩

end Sys2Proof.Machine
end

section
/-!
PROOFS. The invariant between operations (R35, R166, R167): every step keeps it.
-/

namespace Sys2Proof.Machine

/-- The invariant from what an operation leaves that writes neither DELAY nor SESSION: select released, the
written bits kept. -/
theorem BetweenOperations.of_kept {s t : State} (inv : BetweenOperations s) (params : t.params = s.params)
    (now : s.now ≤ t.now) (cs : t.cs = true) (delay : t.delay = s.delay) (session : t.session = s.session)
    (tlast : t.tlast = s.tlast) (fwr : s.fwr = true → t.fwr = true)
    (bwr : s.fwr = true → s.bwr = true → t.bwr = true) (cfgd : s.cfgd = true → t.cfgd = true) :
    BetweenOperations t := by
  obtain ⟨-, least, most, between, stamped, held⟩ := inv
  rw [BetweenOperations, params, delay, session, tlast]
  refine ⟨cs, least, most, between, Nat.le_trans stamped now, fun inside => ?_⟩
  obtain ⟨hfwr, hbwr, hcfgd⟩ := held inside
  exact ⟨fwr hfwr, bwr hfwr hbwr, cfgd hcfgd⟩

/-- An operation that writes at most CS, and that to 1. -/
theorem BetweenOperations.of_cs {s t : State} (inv : BetweenOperations s) (params : t.params = s.params)
    (now : s.now ≤ t.now) (regs : registers t = { registers s with cs := true }) : BetweenOperations t := by
  obtain ⟨-, fwr, -, bwr, delay, cs, cfgd, session, tlast⟩ := registers_eq_iff.1 regs
  exact inv.of_kept params now cs delay session tlast (fun h => fwr.trans h) (fun _ h => bwr.trans h)
    (fun h => cfgd.trans h)

/-- An operation that writes no register. -/
theorem BetweenOperations.of_registers {s t : State} (inv : BetweenOperations s)
    (params : t.params = s.params) (now : s.now ≤ t.now) (regs : registers t = registers s) :
    BetweenOperations t := by
  have released : registers s = { registers s with cs := true } :=
    registers_eq_iff.2 ⟨rfl, rfl, rfl, rfl, rfl, inv.1, rfl, rfl, rfl⟩
  exact inv.of_cs params now (regs.trans released)

theorem ten_le_delayCeiling (p : Params) : 10 ≤ delayCeiling p := by
  unfold delayCeiling
  split <;> omega

/-- A READ that runs keeps the invariant: it needs a session, and leaves FRAME and BTN written. -/
theorem ReadWrites.keeps {s t : State} (writes : ReadWrites s t) (inv : BetweenOperations s)
    (params : t.params = s.params) : BetweenOperations t := by
  obtain ⟨-, least, most, between, -, -⟩ := inv
  obtain ⟨ok, regs⟩ := writes.regs
  obtain ⟨-, fwr, -, bwr, -, cs, cfgd, session, tlast⟩ := registers_eq_iff.1 regs
  have inside : inSession s.session = true := between.resolve_left writes.session
  have stays : inSession t.session = true := by
    rw [session]
    cases h : s.session with
    | ready analogOk => rfl
    | uninitialized | probing | configuringAnalogMode => rw [h] at inside; cases inside
  have cap := ten_le_delayCeiling s.params
  have raised := writes.delay
  rw [BetweenOperations, params]
  exact ⟨cs, by omega, by omega, Or.inr stays, Nat.le_of_eq tlast,
    fun _ => ⟨fwr, bwr, cfgd.trans writes.configured⟩⟩

/-- An INIT that runs ends between operations (R163, R167). -/
theorem InitWrites.keeps {s t : State} (writes : InitWrites s t) (inv : BetweenOperations s)
    (params : t.params = s.params) : BetweenOperations t := by
  obtain ⟨-, least, most, -⟩ := inv
  obtain ⟨least, most⟩ := writes.delay least most
  rw [BetweenOperations, params]
  exact ⟨writes.cs, least, most, writes.session.imp id fun h => by rw [h]; rfl, Nat.le_of_eq writes.tlast,
    fun _ => ⟨writes.fwr, writes.bwr, writes.cfgd⟩⟩

/-- An operation that runs keeps the invariant. -/
theorem Runs.keeps {i : Instr} {s t : State} (runs : Runs i s t) (inv : BetweenOperations s) :
    BetweenOperations t := by
  obtain ⟨ev, gaps, evolves, -⟩ := runs.events
  have params : t.params = s.params := evolves.params
  have now : s.now ≤ t.now := evolves.now_le
  have writes := runs.writes
  cases i
  case rev | btn | axis | rdreg => exact inv.of_registers params now writes
  case xchg | xent | xset | xext | neg => exact inv.of_cs params now writes
  case xrd =>
    obtain ⟨-, fwr, -, bwr, delay, cs, cfgd, session, tlast⟩ := registers_eq_iff.1 writes
    exact inv.of_kept params now cs delay session tlast (fun _ => fwr) (fun _ h => bwr.trans h)
      (fun h => cfgd.trans h)
  case dec =>
    obtain ⟨-, fwr, -, bwr, delay, cs, cfgd, session, tlast⟩ := registers_eq_iff.1 writes
    exact inv.of_kept params now (cs.trans inv.1) delay session tlast (fun h => fwr.trans h)
      (fun h _ => bwr.trans h) (fun h => cfgd.trans h)
  case cfg =>
    obtain ⟨-, fwr, -, bwr, delay, cs, cfgd, session, tlast⟩ := registers_eq_iff.1 writes
    exact inv.of_kept params now cs delay session tlast (fun h => fwr.trans h) (fun _ h => bwr.trans h)
      (fun _ => cfgd)
  case wrreg r v =>
    obtain ⟨regs, least, most⟩ := writes
    obtain ⟨-, fwr, -, bwr, -, cs, cfgd, session, tlast⟩ := registers_eq_iff.1 regs
    obtain ⟨released, -, -, between, stamped, held⟩ := inv
    have cap := ten_le_delayCeiling s.params
    rw [BetweenOperations, params, cs, fwr, bwr, cfgd, session, tlast]
    exact ⟨released, least, by omega, between, Nat.le_trans stamped now, held⟩
  case read => exact writes.keeps inv params
  case init => exact writes.keeps inv params

/-- The invariant does not speak of what has been returned. -/
theorem exec_keeps {i : Instr} {s t : State} (run : exec i s = .next t) (inv : BetweenOperations s) :
    BetweenOperations t := by
  cases exec_ends run with
  | refused c refusal => exact inv
  | completed data u count runs => exact runs.keeps inv
  | failed c u error accepted runs => exact runs.keeps inv

/-- The gap before an operation keeps the invariant. -/
theorem takeCommand_keeps (rest : List Byte) {s : State} (inv : BetweenOperations s) :
    BetweenOperations (takeCommand rest s) :=
  inv.of_registers (takeCommand_params rest s) (now_le_takeCommand rest s) (registers_takeCommand rest s)

/-- Settles O49. -/
theorem everyStepKeepsTheInvariant : Obligations.EveryStepKeepsTheInvariant := by
  unfold Obligations.EveryStepKeepsTheInvariant
  intro s t inv run
  rcases step_cases run with rfl | ⟨rest, -, rfl⟩ | ⟨i, rest, -, run⟩
  · exact inv
  · exact takeCommand_keeps rest inv
  · exact exec_keeps run (takeCommand_keeps rest inv)

end Sys2Proof.Machine
end

section
/-!
PROOFS. READ attempt by attempt (R162): its exact trace and registers, whether it succeeds at an attempt or
misses after five.
-/

namespace Sys2Proof.Machine

/-- Settles O29: the bounds of the whole READ. -/
theorem readMakesABoundedNumberOfExchanges : Obligations.ReadMakesABoundedNumberOfExchanges := by
  unfold Obligations.ReadMakesABoundedNumberOfExchanges
  intro s t session configured run
  obtain ⟨-, ev, evolves, -, -, bounds⟩ := readOnce_spec s
  rw [exec_read_accepted session configured] at run
  obtain rfl := Host.Outcome.next.inj run
  exact ⟨ev, evolves.trace, bounds⟩

/-! ### The head of a READ -/

/-- What precedes the first attempt: NEG if the session is stale, then the rate-limit wait (R162). -/
def readHead (s : State) : State :=
  limitRate (s.now - s.tlast) (recoverIfStale (s.now - s.tlast) s)

theorem readFrame_eq (s : State) : readFrame s = attemptReads 5 (readHead s) := rfl

@[simp] theorem transferCount_readHeadTrace (s : State) :
    transferCount (readHeadTrace s) = readHeadTransfers s := by
  unfold readHeadTrace readHeadTransfers
  split <;> split <;> simp

theorem readHead_spec (s : State) :
    Evolves s (readHead s) (readHeadTrace s) ∧
    registers (readHead s) = { registers s with cs := (readHead s).cs } := by
  have stale : Evolves s (recoverIfStale (s.now - s.tlast) s)
        (if s.now - s.tlast > s.params.staleUs then negTrace s 0 else []) ∧
      registers (recoverIfStale (s.now - s.tlast) s) =
        { registers s with cs := (recoverIfStale (s.now - s.tlast) s).cs } := by
    unfold recoverIfStale
    split
    · obtain ⟨neg, regs⟩ := negotiate_spec s
      have cs : (negotiate s).cs = true := by simpa using congrArg Registers.cs regs
      exact ⟨neg, by rw [cs]; exact regs⟩
    · exact ⟨Evolves.refl s, rfl⟩
  obtain ⟨evolves, regs⟩ := stale
  have delay : (recoverIfStale (s.now - s.tlast) s).delay = s.delay := by
    simpa using congrArg Registers.delay regs
  unfold readHead limitRate readHeadTrace
  rw [delay]
  split
  · exact ⟨evolves.trans (delayFor_evolves _ _), by simpa [registers] using regs⟩
  · exact ⟨by simpa using evolves, regs⟩

/-! ### Failed attempts -/

/-- A failed attempt: XRD, NEG, the retry wait (R162). -/
def failedAttempt (s : State) : State := retryWait (readDataExchange s).2

/-- Its trace, where its first transfer is the `k`-th from `s` on. -/
def attemptTrace (s : State) (k : Nat) : List Event :=
  xrdTrace s k ++ negTrace s (k + 9) ++ [.delay s.delay.toNat]

@[simp] theorem transferCount_attemptTrace (s : State) (k : Nat) :
    transferCount (attemptTrace s k) = 32 := by
  simp [attemptTrace]

@[simp] theorem exchangeCount_attemptTrace (s : State) (k : Nat) :
    exchangeCount (attemptTrace s k) = 4 := by
  simp [attemptTrace]

@[simp] theorem length_attemptTrace (s : State) (k : Nat) : (attemptTrace s k).length = 57 := by
  simp [attemptTrace, xrdTrace, length_exchangeTrace]

theorem attemptTrace_shift {s t : State} {m : Nat} (h : ∀ k, answerAt t k = answerAt s (m + k))
    (d : t.delay = s.delay) (k : Nat) : attemptTrace t k = attemptTrace s (m + k) := by
  simp [attemptTrace, xrdTrace_shift h d, negTrace_shift h d, d, Nat.add_assoc]

theorem failedAttempt_spec (s : State) :
    Evolves s (failedAttempt s) (attemptTrace s 0) ∧
    registers (failedAttempt s) =
      { registers s with cs := true, fwr := true, frame := frameFrom s 0 } := by
  obtain ⟨-, xrd, regs⟩ := readDataExchange_spec s
  obtain ⟨neg, negRegs⟩ := negotiate_spec (readDataExchange s).2
  have delay : (readDataExchange s).2.delay = s.delay := by simpa using congrArg Registers.delay regs
  have waits := delayFor_evolves (negotiate (readDataExchange s).2).delay.toNat
    (negotiate (readDataExchange s).2)
  rw [negTrace_shift xrd.answers delay] at neg
  have all := (xrd.trans neg).trans waits
  rw [negotiate_delay, delay, transferCount_xrdTrace] at all
  refine ⟨by simpa [failedAttempt, retryWait, negotiate_delay, delay, attemptTrace] using all, ?_⟩
  rw [regs] at negRegs
  simpa [failedAttempt, retryWait, registers] using negRegs

/-- So many failed attempts one after another. -/
def failedAttempts : Nat → State → State
  | 0, s => s
  | n + 1, s => failedAttempts n (failedAttempt s)

/-- Their trace, where the first transfer is the `k`-th from `s` on. -/
def attemptsTrace (s : State) (k n : Nat) : List Event :=
  (List.range n).flatMap fun j => attemptTrace s (k + 32 * j)

theorem attemptsTrace_succ (s : State) (k n : Nat) :
    attemptsTrace s k (n + 1) = attemptTrace s k ++ attemptsTrace s (k + 32) n := by
  have shift : ∀ j, k + 32 * (j + 1) = k + 32 + 32 * j := fun j => by omega
  simp [attemptsTrace, List.range_succ_eq_map, List.flatMap_map, shift]

theorem attemptsTrace_shift {s t : State} {m : Nat} (h : ∀ k, answerAt t k = answerAt s (m + k))
    (d : t.delay = s.delay) (k n : Nat) : attemptsTrace t k n = attemptsTrace s (m + k) n := by
  simp [attemptsTrace, attemptTrace_shift h d, Nat.add_assoc]

theorem attemptsTrace_counts (s : State) (k n : Nat) :
    transferCount (attemptsTrace s k n) = 32 * n ∧ exchangeCount (attemptsTrace s k n) = 4 * n ∧
      (attemptsTrace s k n).length = 57 * n := by
  induction n generalizing k with
  | zero => exact ⟨rfl, rfl, rfl⟩
  | succ n ih =>
    obtain ⟨transfers, exchanges, events⟩ := ih (k + 32)
    rw [attemptsTrace_succ, transferCount_append, exchangeCount_append, List.length_append, transfers,
      exchanges, events, transferCount_attemptTrace, exchangeCount_attemptTrace, length_attemptTrace]
    omega

/-- The registers after failed attempts: of them only CS and FRAME have been written. -/
theorem failedAttempts_spec (n : Nat) (s : State) :
    Evolves s (failedAttempts n s) (attemptsTrace s 0 n) ∧
    registers (failedAttempts n s) =
      { registers s with
        cs := (failedAttempts n s).cs, fwr := (failedAttempts n s).fwr
        frame := (failedAttempts n s).frame } := by
  induction n generalizing s with
  | zero => exact ⟨Evolves.refl s, rfl⟩
  | succ n ih =>
    obtain ⟨first, firstRegs⟩ := failedAttempt_spec s
    obtain ⟨later, laterRegs⟩ := ih (failedAttempt s)
    have delay : (failedAttempt s).delay = s.delay := by simpa using congrArg Registers.delay firstRegs
    rw [attemptsTrace_shift first.answers delay, transferCount_attemptTrace] at later
    rw [attemptsTrace_succ]
    refine ⟨first.trans later, ?_⟩
    rw [failedAttempts, laterRegs, firstRegs]

/-- The validity of an XRD's frame is that of PEER's answers (R25). -/
theorem valid_readDataExchange (s : State) :
    valid (readDataExchange s).2.frame = validMode (frameFrom s 0)[1] := by
  have frame : (readDataExchange s).2.frame = frameFrom s 0 :=
    by simpa using congrArg Registers.frame (readDataExchange_spec s).2.2
  rw [frame]
  rfl

/-- While invalid frames come, an attempt before the last is a failed one (R162). -/
theorem attemptReads_of_failures {n later : Nat} {s : State}
    (invalid : ∀ j < n, validMode (frameFrom s (32 * j))[1] = false) :
    attemptReads (n + (later + 1)) s = attemptReads (later + 1) (failedAttempts n s) := by
  induction n generalizing s with
  | zero => rw [Nat.zero_add, failedAttempts]
  | succ n ih =>
    have first := invalid 0 (Nat.succ_pos n)
    rw [Nat.mul_zero, ← valid_readDataExchange] at first
    have answers := (failedAttempt_spec s).1.answers
    rw [transferCount_attemptTrace] at answers
    have rest : ∀ j < n, validMode (frameFrom (failedAttempt s) (32 * j))[1] = false := by
      intro j hj
      rw [frameFrom_shift answers, show 32 + 32 * j = 32 * (j + 1) by omega]
      exact invalid (j + 1) (by omega)
    have retried : attemptReads (n + 1 + (later + 1)) s =
        attemptReads (n + (later + 1)) (failedAttempt s) := by
      rw [show n + 1 + (later + 1) = n + (later + 1) + 1 by omega, attemptReads]
      rw [first, if_neg Bool.false_ne_true, if_pos (Or.inl (by omega))]
      rfl
    rw [retried, ih rest, failedAttempts]

/-! ### The two ways a READ goes -/

/-- The state before attempt `n`, all before it failed. -/
def beforeAttempt (n : Nat) (s : State) : State := failedAttempts n (readHead s)

theorem failedAttemptsTrace_eq (s : State) (n : Nat) :
    failedAttemptsTrace s n = attemptsTrace s (readHeadTransfers s) n := rfl

theorem failedAttemptTrace_eq (s : State) (j : Nat) :
    failedAttemptTrace s j = attemptTrace s (attemptStart s j) := rfl

theorem readHead_delay (s : State) : (readHead s).delay = s.delay :=
  by simpa using congrArg Registers.delay (readHead_spec s).2

theorem readHead_answers (s : State) (k : Nat) :
    answerAt (readHead s) k = answerAt s (readHeadTransfers s + k) := by
  rw [(readHead_spec s).1.answers, transferCount_readHeadTrace]

theorem beforeAttempt_spec (n : Nat) (s : State) :
    Evolves s (beforeAttempt n s) (readHeadTrace s ++ failedAttemptsTrace s n) ∧
    registers (beforeAttempt n s) =
      { registers s with
        cs := (beforeAttempt n s).cs, fwr := (beforeAttempt n s).fwr
        frame := (beforeAttempt n s).frame } ∧
    ∀ k, answerAt (beforeAttempt n s) k = answerAt s (attemptStart s n + k) := by
  obtain ⟨head, headRegs⟩ := readHead_spec s
  obtain ⟨attempts, regs⟩ := failedAttempts_spec n (readHead s)
  rw [attemptsTrace_shift (readHead_answers s) (readHead_delay s), Nat.add_zero,
    ← failedAttemptsTrace_eq] at attempts
  have all := head.trans attempts
  refine ⟨all, by rw [beforeAttempt, regs, headRegs], fun k => ?_⟩
  have transfers : transferCount (failedAttemptsTrace s n) = 32 * n :=
    (attemptsTrace_counts s (readHeadTransfers s) n).1
  have answers := all.answers k
  rw [transferCount_append, transferCount_readHeadTrace, transfers] at answers
  exact answers

/-- The frames of the attempts, seen from the head on. -/
theorem frameFrom_readHead (s : State) (j : Nat) :
    frameFrom (readHead s) (32 * j) = frameFrom s (attemptStart s j) :=
  frameFrom_shift (readHead_answers s) (32 * j)

/-- READ's retry phase stops at the first valid frame. -/
theorem readFrame_of_valid {s : State} {n : Nat} (few : n < 5)
    (invalid : ∀ j < n, validMode (frameFrom s (attemptStart s j))[1] = false)
    (found : validMode (frameFrom s (attemptStart s n))[1] = true) :
    Evolves s (readFrame s)
      (readHeadTrace s ++ failedAttemptsTrace s n ++ xrdTrace s (attemptStart s n)) ∧
    (readFrame s).frame = frameFrom s (attemptStart s n) := by
  obtain ⟨evolves, regs, answers⟩ := beforeAttempt_spec n s
  obtain ⟨-, xrd, xrdRegs⟩ := readDataExchange_spec (beforeAttempt n s)
  have delay : (beforeAttempt n s).delay = s.delay := by simpa using congrArg Registers.delay regs
  have frame := frameFrom_shift answers 0
  have ok : valid (readDataExchange (beforeAttempt n s)).2.frame = true := by
    rw [valid_readDataExchange, frame]
    exact found
  have stops : readFrame s = (readDataExchange (beforeAttempt n s)).2 := by
    obtain ⟨later, five⟩ : ∃ later, 5 = n + (later + 1) := ⟨4 - n, by omega⟩
    rw [readFrame_eq, five, attemptReads_of_failures fun j hj => by
      rw [frameFrom_readHead]
      exact invalid j hj]
    change attemptReads (later + 1) (beforeAttempt n s) = _
    rw [attemptReads]
    exact if_pos ok
  have last : (readDataExchange (beforeAttempt n s)).2.frame = frameFrom (beforeAttempt n s) 0 := by
    simpa using congrArg Registers.frame xrdRegs
  rw [xrdTrace_shift answers delay] at xrd
  rw [stops]
  exact ⟨evolves.trans xrd, last.trans frame⟩

/-- READ's retry phase after five invalid frames. -/
theorem readFrame_of_invalid {s : State}
    (invalid : ∀ j < 5, validMode (frameFrom s (attemptStart s j))[1] = false) :
    Evolves s (readFrame s)
      (readHeadTrace s ++ failedAttemptsTrace s 4 ++
        (if s.params.negAfterLastAttempt then failedAttemptTrace s 4 else xrdTrace s (attemptStart s 4))) ∧
    (readFrame s).frame = frameFrom s (attemptStart s 4) := by
  obtain ⟨evolves, regs, answers⟩ := beforeAttempt_spec 4 s
  obtain ⟨-, xrd, xrdRegs⟩ := readDataExchange_spec (beforeAttempt 4 s)
  obtain ⟨failed, failedRegs⟩ := failedAttempt_spec (beforeAttempt 4 s)
  have delay : (beforeAttempt 4 s).delay = s.delay := by simpa using congrArg Registers.delay regs
  have frame := frameFrom_shift answers 0
  have miss : valid (readDataExchange (beforeAttempt 4 s)).2.frame = false := by
    rw [valid_readDataExchange, frame]
    exact invalid 4 (by omega)
  have ends : readFrame s =
      if s.params.negAfterLastAttempt then failedAttempt (beforeAttempt 4 s)
      else (readDataExchange (beforeAttempt 4 s)).2 := by
    rw [readFrame_eq, attemptReads_of_failures (n := 4) (later := 0) fun j hj => by
      rw [frameFrom_readHead]
      exact invalid j (by omega)]
    change attemptReads 1 (beforeAttempt 4 s) = _
    simp only [attemptReads, miss, Bool.false_eq_true, if_false, ne_eq, not_true_eq_false, false_or,
      xrd.params, evolves.params]
    rfl
  rw [ends]
  rw [xrdTrace_shift answers delay] at xrd
  rw [attemptTrace_shift answers delay] at failed
  split
  · have last : (failedAttempt (beforeAttempt 4 s)).frame = frameFrom (beforeAttempt 4 s) 0 := by
      simpa using congrArg Registers.frame failedRegs
    exact ⟨evolves.trans failed, last.trans frame⟩
  · have last : (readDataExchange (beforeAttempt 4 s)).2.frame = frameFrom (beforeAttempt 4 s) 0 := by
      simpa using congrArg Registers.frame xrdRegs
    exact ⟨evolves.trans xrd, last.trans frame⟩

/-- The whole READ from its retry phase: the same events, and the registers by the frame it ends with. -/
theorem readOnce_of_readFrame {s : State} {ev : List Event} {f : Vector Byte 9}
    (evolves : Evolves s (readFrame s) ev) (frame : (readFrame s).frame = f) :
    (readOnce s).1 = valid f ∧ Evolves s (readOnce s).2 ev ∧
    registers (readOnce s).2 =
      { registers s with
        frame := f, fwr := true, btn := packButtons f[3] f[4], bwr := true, cs := true
        delay := if (!valid f && s.delay < delayCap) = true then s.delay + 1 else s.delay
        session := sessionAfterRead (valid f) s.session
        tlast := (readOnce s).2.now } := by
  obtain ⟨-, -, frameRegs, -⟩ := readFrame_spec s
  obtain ⟨ok, -, -, regs, -⟩ := readOnce_spec s
  have fwr : (backOff (valid (readFrame s).frame) (readFrame s)).fwr = true := by
    simpa using congrArg Registers.fwr frameRegs
  have same : (readOnce s).2.frame = f := by
    rw [← frame, readOnce, decodeButtons_written _ fwr]
    simp
  have result : (readOnce s).1 = valid f := by rw [ok, same]
  refine ⟨result, ?_, by rw [same, result] at regs; exact regs⟩
  rw [readOnce, decodeButtons_written _ fwr]
  exact evolves.of_registers

/-- Settles O26. -/
theorem readSucceedsAtTheFirstValidFrame : Obligations.ReadSucceedsAtTheFirstValidFrame := by
  unfold Obligations.ReadSucceedsAtTheFirstValidFrame
  intro s k session configured few invalid found
  obtain ⟨evolves, frame⟩ := readFrame_of_valid few invalid found
  obtain ⟨result, evolves, regs⟩ := readOnce_of_readFrame evolves frame
  have ok : valid (frameFrom s (attemptStart s k)) = true := found
  rw [ok] at result regs
  exact ⟨(readOnce s).2, by rw [exec_read_accepted session configured, result]; rfl, evolves, regs⟩

/-- Settles O27. -/
theorem readMissesAfterFiveInvalidFrames : Obligations.ReadMissesAfterFiveInvalidFrames := by
  unfold Obligations.ReadMissesAfterFiveInvalidFrames
  intro s session configured invalid
  obtain ⟨evolves, frame⟩ := readFrame_of_invalid invalid
  obtain ⟨result, evolves, regs⟩ := readOnce_of_readFrame evolves frame
  have miss : valid (frameFrom s (attemptStart s 4)) = false := invalid 4 (by omega)
  have below : s.delay < delayCap ↔ s.delay.toNat < 10 := Iff.rfl
  rw [miss] at result regs
  simp only [Bool.not_false, Bool.true_and, decide_eq_true_eq, below] at regs
  exact ⟨(readOnce s).2, by rw [exec_read_accepted session configured, result]; rfl, evolves, regs⟩

end Sys2Proof.Machine
end

section
/-!
PROOFS. READ and INIT as host programs over other operations (R162, R163).
-/

namespace Sys2Proof.Machine

/-! ### READ over Layer 1 -/

theorem readDataExchange_cfgd (s : State) : (readDataExchange s).2.cfgd = s.cfgd := by
  simpa using congrArg Registers.cfgd (readDataExchange_spec s).2.2

theorem readDataExchange_delay (s : State) : (readDataExchange s).2.delay = s.delay := by
  simpa using congrArg Registers.delay (readDataExchange_spec s).2.2

theorem negotiate_cfgd (s : State) : (negotiate s).cfgd = s.cfgd := by
  simpa using congrArg Registers.cfgd (negotiate_spec s).2

theorem negotiate_session (s : State) : (negotiate s).session = s.session := by
  simpa using congrArg Registers.session (negotiate_spec s).2

theorem quietly_xrd {s : State} (configured : s.cfgd = true) : quietly .xrd s = (readDataExchange s).2 :=
  quietly_of_complete (exec_xrd_accepted configured) (readDataExchange_spec s).2.1.hostOut

/-- The retry wait as a host makes it: DELAY is the same before and after the exchanges. -/
theorem retryWait_readDataExchange {s : State} (configured : s.cfgd = true) :
    retryWait (readDataExchange s).2 =
      delayFor s.delay.toNat (quietly .xext (quietly .xset (quietly .xent (quietly .xrd s)))) := by
  rw [quietly_xrd configured, quietly_xent_xset_xext (by rw [readDataExchange_cfgd, configured]), retryWait,
    negotiate_delay, readDataExchange_delay]

/-- The retry loop is its host program. -/
theorem layerOneAttempts_eq (left : Nat) {s : State} (configured : s.cfgd = true) :
    layerOneAttempts left s = attemptReads left s := by
  induction left generalizing s with
  | zero => rfl
  | succ later ih =>
    have params : (readDataExchange s).2.params = s.params := (readDataExchange_spec s).2.1.params
    have tried : (readDataExchange s).2.cfgd = true := (readDataExchange_cfgd s).trans configured
    have retried : (retryWait (readDataExchange s).2).cfgd = true := by
      rw [retryWait, delayFor_cfgd, negotiate_cfgd, tried]
    rw [layerOneAttempts, attemptReads, ← retryWait_readDataExchange configured, quietly_xrd configured,
      ih tried, ih retried, params]

/-- READ's retry phase is its host program. -/
theorem layerOneFrame_eq {s : State} (configured : s.cfgd = true) : layerOneFrame s = readFrame s := by
  have fresh : (if s.now - s.tlast > s.params.staleUs then
      quietly .xext (quietly .xset (quietly .xent s)) else s) = recoverIfStale (s.now - s.tlast) s := by
    rw [quietly_xent_xset_xext configured, recoverIfStale]
  have delay : (recoverIfStale (s.now - s.tlast) s).delay = s.delay := by
    unfold recoverIfStale
    split
    · exact negotiate_delay s
    · rfl
  have ready : (readHead s).cfgd = true := by
    simpa [configured] using congrArg Registers.cfgd (readHead_spec s).2
  have head : (if s.now - s.tlast < s.delay.toNat then
        delayFor (s.delay.toNat - (s.now - s.tlast)) (recoverIfStale (s.now - s.tlast) s)
      else recoverIfStale (s.now - s.tlast) s) = readHead s := by
    rw [readHead, limitRate, delay]
  rw [layerOneFrame, fresh, head, layerOneAttempts_eq 5 ready, readFrame_eq]

/-- The back-off as a host makes it, by WRREG (R117). -/
theorem backOff_eq_quietly (s : State) :
    backOff (valid s.frame) s =
      if !valid s.frame && s.delay < 10 then quietly (.wrreg 1 (s.delay + 1)) s else s := by
  unfold backOff
  split
  next miss =>
    have below : s.delay.toNat < 10 := by
      have : s.delay < 10 := by simpa using (Bool.and_eq_true_iff.1 miss).2
      exact this
    have raised := toNat_add_one (d := s.delay) (by omega)
    exact (quietly_of_complete (exec_wrreg_accepted (v := s.delay + 1) s (by omega) (by omega)) rfl).symm
  next => rfl

/-- DEC of a written FRAME, run for its effect. -/
theorem quietly_dec {s : State} (written : s.fwr = true) : quietly .dec s = decodeButtons s :=
  quietly_of_complete (exec_dec s) (by rw [decodeButtons_written s written])

/-- READ's last write, on any state (R28, R162). -/
theorem noteResult_eq (ok : Bool) (s : State) :
    noteResult ok s = { s with session := sessionAfterRead ok s.session } := by
  unfold noteResult
  split
  next h => rw [h]; rfl
  all_goals next h => rw [show sessionAfterRead ok s.session = s.session by rw [h]; rfl]

theorem readFrame_fwr (s : State) : (readFrame s).fwr = true := by
  obtain ⟨-, -, regs, -⟩ := readFrame_spec s
  simpa using congrArg Registers.fwr regs

theorem readFrame_session (s : State) : (readFrame s).session = s.session := by
  obtain ⟨-, -, regs, -⟩ := readFrame_spec s
  simpa using congrArg Registers.session regs

/-- READ up to its own two writes is its host program. -/
theorem layerOneRead_eq {s : State} (configured : s.cfgd = true) :
    layerOneRead s = decodeButtons (backOff (valid (readFrame s).frame) (readFrame s)) := by
  have written : (backOff (valid (readFrame s).frame) (readFrame s)).fwr = true := by
    rw [backOff_fwr, readFrame_fwr]
  rw [layerOneRead, layerOneFrame_eq configured, ← backOff_eq_quietly, quietly_dec written]

/-- Settles O30. -/
theorem readIsItsLayerOneExpansion : Obligations.ReadIsItsLayerOneExpansion := by
  unfold Obligations.ReadIsItsLayerOneExpansion
  intro s session configured
  have kept : (layerOneRead s).session = s.session := by
    rw [layerOneRead_eq configured, decodeButtons_written _ (by rw [backOff_fwr, readFrame_fwr])]
    exact (backOff_session _ _).trans (readFrame_session s)
  have state : (readOnce s).2 =
      { layerOneRead s with
        tlast := (layerOneRead s).now
        session := sessionAfterRead (valid (readFrame s).frame) s.session } := by
    rw [← kept, layerOneRead_eq configured]
    exact noteResult_eq _ _
  have result : (readOnce s).1 = valid (readFrame s).frame := rfl
  rw [exec_read_accepted session configured, layerOneFrame_eq configured, result, state]

/-! ### INIT over CFG, READ and NEG -/

theorem readOnce_hostOut (s : State) : (readOnce s).2.hostOut = s.hostOut := by
  obtain ⟨-, ev, evolves, -⟩ := readOnce_spec s
  exact evolves.hostOut

theorem quietly_read {s : State} (session : s.session ≠ .uninitialized) (configured : s.cfgd = true) :
    quietly .read s = (readOnce s).2 :=
  quietly_of_endWith (exec_read_accepted session configured) (readOnce_hostOut s)

theorem quietly_cfg {s : State} (usable : s.params.pinsUsable = true) : quietly .cfg s = configure s :=
  quietly_of_complete (exec_cfg_accepted usable) (configure_spec s).1.hostOut

/-- A READ inside INIT leaves SESSION (R28). -/
theorem readOnce_session_of_init {s : State} {v : Session} (h : s.session = v)
    (inInit : ∀ ok, sessionAfterRead ok v = v) : (readOnce s).2.session = v := by
  rw [readOnce_session, h, inInit]

theorem readOnce_cfgd (s : State) : (readOnce s).2.cfgd = s.cfgd :=
  (readOnce_afterRead s).cfgd

/-- INIT's increment as the expansion writes it. -/
theorem raiseDelay_eq (s : State) :
    raiseDelay s = if s.params.initIncUncapped || s.delay < 10 then { s with delay := s.delay + 1 } else s :=
  rfl

/-- The negotiation loop is its expansion. -/
theorem expandedLoop_eq (left : Nat) {s : State} (session : s.session = .configuringAnalogMode)
    (configured : s.cfgd = true) : expandedLoop left s = negotiationLoop left s := by
  induction left generalizing s with
  | zero => rfl
  | succ later ih =>
    have negSession : (negotiate s).session = .configuringAnalogMode := (negotiate_session s).trans session
    have negConfigured : (negotiate s).cfgd = true := (negotiate_cfgd s).trans configured
    have tried : quietly .read (quietly .neg s) = (readOnce (negotiate s)).2 := by
      rw [quietly_neg (fun _ => by rw [session]; decide) configured,
        quietly_read (by rw [negSession]; decide) negConfigured]
    have afterSession := readOnce_session_of_init negSession fun _ => rfl
    have afterConfigured := (readOnce_cfgd (negotiate s)).trans negConfigured
    have again := ih afterSession afterConfigured
    have raised := ih (s := raiseDelay (readOnce (negotiate s)).2)
      ((raiseDelay_session _).trans afterSession) ((raiseDelay_cfgd _).trans afterConfigured)
    rw [expandedLoop, negotiationLoop, tried]
    by_cases last : later = 0
    · rw [if_pos last, if_neg (not_not_intro last), again]
    · rw [if_neg last, if_pos last, ← raised, raiseDelay_eq]
      split
      · rfl
      · split <;> rfl

/-- The two probe READs are READs of an INIT in its probing phase. -/
theorem probePhase_eq {s : State} (usable : s.params.pinsUsable = true) :
    quietly .read (elapse 0 (quietly .read (elapse 0 (quietly .cfg (setSession .probing s))))) =
      probePhase s := by
  obtain ⟨-, regs⟩ := configure_spec (setSession .probing s)
  have session : (elapse 0 (configure (setSession .probing s))).session = .probing := by
    simpa using congrArg Registers.session regs
  have configured : (elapse 0 (configure (setSession .probing s))).cfgd = true := by
    simpa using congrArg Registers.cfgd regs
  have session' : (elapse 0 (readOnce (elapse 0 (configure (setSession .probing s)))).2).session =
      .probing := by
    rw [elapse_session, readOnce_session_of_init session fun _ => rfl]
  have configured' : (elapse 0 (readOnce (elapse 0 (configure (setSession .probing s)))).2).cfgd = true := by
    rw [elapse_cfgd, readOnce_cfgd, configured]
  rw [quietly_cfg (s := setSession .probing s) usable,
    quietly_read (by rw [session]; decide) configured,
    quietly_read (by rw [session']; decide) configured']
  rfl

/-- INIT is its expansion. -/
theorem expandedInit_eq {s : State} (usable : s.params.pinsUsable = true) :
    expandedInit s = startSession s := by
  obtain ⟨-, -, -, configured, -⟩ := probePhase_spec s
  rw [expandedInit, startSession, probePhase_eq usable]
  rw [expandedLoop_eq (s := setSession .configuringAnalogMode { probePhase s with delay := 1 }) 11 rfl
    configured]
  rfl

/-- Settles O37. -/
theorem initIsItsExpansion : Obligations.InitIsItsExpansion := by
  unfold Obligations.InitIsItsExpansion
  intro s usable
  obtain ⟨ev, run⟩ := startSession_spec s
  rw [exec_init_accepted usable, expandedInit_eq usable, ← run.evolves.hostOut]

end Sys2Proof.Machine
end

section
/-!
PROOFS. INIT against a given peer (R163, R165, R201, R202): what a READ makes of the peer's bytes, what the
probe phase and the negotiation loop make of such READs, and the four peers.
-/

namespace Sys2Proof.Machine

/-! ### The mode byte of a frame -/

/-- The mode byte of a frame is the second byte received, through the codec (R51). -/
theorem mode_frameFrom (s : State) (k : Nat) : (frameFrom s k)[1] = reverse8 (answerAt s (k + 1)) := by
  simp [frameFrom]

theorem valid_eq_of_mode {f : Vector Byte 9} {m : Byte} (h : f[1] = m) : valid f = validMode m :=
  congrArg validMode h

theorem alive_eq_of_mode {f : Vector Byte 9} {m : Byte} (h : f[1] = m) : alive f = aliveMode m :=
  congrArg aliveMode h

theorem confirmed_eq_of_mode {f : Vector Byte 9} {m : Byte} (h : f[1] = m) :
    confirmed f = confirmedMode m :=
  congrArg confirmedMode h

theorem readHeadTransfers_le (s : State) : readHeadTransfers s ≤ 23 := by
  unfold readHeadTransfers
  split <;> omega

/-- Either a first valid frame comes at one of the five attempts, or none. -/
theorem first_valid_or_none (s : State) :
    (∃ n < 5, (∀ j < n, validMode (frameFrom s (attemptStart s j))[1] = false) ∧
      validMode (frameFrom s (attemptStart s n))[1] = true) ∨
    ∀ j < 5, validMode (frameFrom s (attemptStart s j))[1] = false := by
  by_cases found : ∃ n, n < 5 ∧ validMode (frameFrom s (attemptStart s n))[1] = true
  · obtain ⟨few, ok⟩ := Nat.find_spec found
    refine Or.inl ⟨Nat.find found, few, fun j before => ?_, ok⟩
    have none := Nat.find_min found before
    exact Bool.eq_false_of_not_eq_true fun h => none ⟨by omega, h⟩
  · exact Or.inr fun j hj => Bool.eq_false_of_not_eq_true fun h => found ⟨j, hj, h⟩

/-- The frame a READ ends with is nine of the bytes it received, of which there are at most 183. -/
theorem readOnce_frame (s : State) :
    ∃ ev k, Evolves s (readOnce s).2 ev ∧ (readOnce s).2.frame = frameFrom s k ∧
      k + 9 ≤ transferCount ev ∧ transferCount ev ≤ 183 := by
  have head := readHeadTransfers_le s
  have attempts : ∀ n, transferCount (failedAttemptsTrace s n) = 32 * n :=
    fun n => (attemptsTrace_counts s (readHeadTransfers s) n).1
  rcases first_valid_or_none s with ⟨n, few, invalid, found⟩ | invalid
  · obtain ⟨evolves, frame⟩ := readFrame_of_valid few invalid found
    obtain ⟨-, evolves, regs⟩ := readOnce_of_readFrame evolves frame
    refine ⟨_, _, evolves, by simpa using congrArg Registers.frame regs, ?_, ?_⟩ <;>
      simp [attempts, attemptStart] <;> omega
  · obtain ⟨evolves, frame⟩ := readFrame_of_invalid invalid
    obtain ⟨-, evolves, regs⟩ := readOnce_of_readFrame evolves frame
    refine ⟨_, _, evolves, by simpa using congrArg Registers.frame regs, ?_, ?_⟩ <;>
      simp only [transferCount_append, transferCount_readHeadTrace, attempts, attemptStart] <;>
      split <;> simp [failedAttemptTrace_eq] <;> omega

/-! ### A peer that is dead -/

/-- Settles O33: the frame of the second probe READ is among the first 366 bytes. -/
theorem initOfADeadPeerIsNoResponse : Obligations.InitOfADeadPeerIsNoResponse := by
  unfold Obligations.InitOfADeadPeerIsNoResponse
  intro s usable dead
  obtain ⟨calls, regs⟩ := configure_spec (setSession .probing s)
  have delay : (configure (setSession .probing s)).delay = s.delay := by
    simpa using congrArg Registers.delay regs
  have toProbe := ((setSession_evolves .probing s).trans calls).trans (elapse_evolves _)
  have probed : probePhase s =
      (readOnce (elapse 0 (readOnce (elapse 0 (configure (setSession .probing s)))).2)).2 := rfl
  generalize configure (setSession .probing s) = start at toProbe delay probed
  obtain ⟨ev, k, first, -, -, most⟩ := readOnce_frame (elapse 0 start)
  have toSecond := (toProbe.trans first).trans (elapse_evolves _)
  obtain ⟨ev', k', -, frame, within, most'⟩ := readOnce_frame (elapse 0 (readOnce (elapse 0 start)).2)
  have notAlive : alive (probePhase s).frame = false := by
    rw [probed, frame, alive_eq_of_mode (mode_frameFrom _ k'), toSecond.answers]
    exact dead _ (by simp [transferCount] at most within most' ⊢; omega)
  have ends : startSession s = (.noResponse, setSession .uninitialized (probePhase s)) := by
    rw [startSession]
    exact if_neg (Bool.eq_false_iff.1 notAlive)
  have firstDelay := readOnce_delay_bounds (elapse 0 start)
  have secondDelay := readOnce_delay_bounds (elapse 0 (readOnce (elapse 0 start)).2)
  rw [elapse_delay, delay] at firstDelay
  rw [elapse_delay, ← probed] at secondDelay
  refine ⟨setSession .uninitialized (probePhase s), by rw [exec_init_accepted usable, ends], rfl, ?_, ?_⟩
  · rw [setSession_delay]
    omega
  · rw [setSession_delay]
    omega

/-! ### Scripts of PEER and CLOCK -/

/-- PEER answers the byte `raw` to the next `m` transfers. -/
def Answers (raw : Byte) (m : Nat) (s : State) : Prop := ∀ k < m, answerAt s k = raw

/-- CLOCK lets more than STALE_US pass at each of the next `n` ticks. -/
def SlowClock (n : Nat) (s : State) : Prop := ∀ k < n, s.params.staleUs < tickAt s k

/-- Events use up the head of the script. -/
theorem Answers.after {raw : Byte} {m m' : Nat} {s t : State} {ev : List Event} {gaps : Nat}
    (h : Answers raw m s) (evolves : Evolves s t ev gaps) (room : transferCount ev + m' ≤ m) :
    Answers raw m' t := by
  intro k hk
  rw [evolves.answers]
  exact h _ (by omega)

theorem SlowClock.after {n n' : Nat} {s t : State} {ev : List Event} {gaps : Nat}
    (h : SlowClock n s) (evolves : Evolves s t ev gaps) (room : ev.length + gaps + n' ≤ n) :
    SlowClock n' t := by
  intro k hk
  rw [evolves.params, evolves.ticks]
  exact h _ (by omega)

/-- The first of several ticks is part of their sum. -/
theorem tickAt_zero_le_tickSum (s : State) {n : Nat} (h : 1 ≤ n) : tickAt s 0 ≤ tickSum s n := by
  obtain ⟨k, rfl⟩ := Nat.exists_eq_add_of_le h
  rw [tickSum_add]
  simp [tickSum]

/-- After one slow tick a session is stale (R162). -/
theorem SlowClock.stale {n : Nat} {s t : State} {ev : List Event} {gaps : Nat} (h : SlowClock n s)
    (room : ev.length + gaps ≤ n) (evolves : Evolves s t ev gaps) (tick : 1 ≤ ev.length + gaps)
    (stamped : s.tlast ≤ s.now) (kept : t.tlast = s.tlast) : t.now - t.tlast > t.params.staleUs := by
  have slow := h 0 (by omega)
  have passed := tickAt_zero_le_tickSum s tick
  rw [evolves.params, evolves.now, kept]
  omega

/-- Bounds on the exchanges and transfers of one round of a phase of INIT. -/
structure Cost where
  leastExchanges : Nat
  mostExchanges : Nat
  leastTransfers : Nat
  mostTransfers : Nat

/-- The events of `n` rounds keep the bounds. -/
def Cost.Bounds (c : Cost) (n : Nat) (ev : List Event) : Prop :=
  c.leastExchanges * n ≤ exchangeCount ev ∧ exchangeCount ev ≤ c.mostExchanges * n ∧
    c.leastTransfers * n ≤ transferCount ev ∧ transferCount ev ≤ c.mostTransfers * n

theorem Cost.Bounds.append {c : Cost} {m n : Nat} {a b : List Event} (ha : c.Bounds m a)
    (hb : c.Bounds n b) : c.Bounds (m + n) (a ++ b) := by
  unfold Cost.Bounds at *
  simp only [exchangeCount_append, transferCount_append, Nat.mul_add]
  omega

/-! ### The phases of INIT against a peer whose READs are known -/

/-- The probe phase, for a peer whose every READ ends with the same mode byte.  `fits n` holds of the states
from which the peer plays on for `n` READs. -/
theorem probe_of_peer {c : Cost} {mode : Byte} {fits : Nat → State → Prop}
    (read : ∀ n s, fits (n + 1) s → ∃ ev, Evolves s (readOnce (elapse 0 s)).2 ev 1 ∧ c.Bounds 1 ev ∧
      (readOnce (elapse 0 s)).2.frame[1] = mode ∧ fits n (readOnce (elapse 0 s)).2)
    (n : Nat) (s : State) (start : fits (n + 1) s) :
    ∃ ev, Evolves s (probe (n + 1) s) ev (n + 1) ∧ c.Bounds (n + 1) ev ∧
      (probe (n + 1) s).frame[1] = mode ∧ fits 0 (probe (n + 1) s) := by
  induction n generalizing s with
  | zero => exact read 0 s start
  | succ n ih =>
    obtain ⟨ev, evolves, cost, -, next⟩ := read (n + 1) s start
    obtain ⟨ev', evolves', cost', mode', last⟩ := ih _ next
    have all := evolves.trans evolves'
    have rounds := cost.append cost'
    rw [Nat.add_comm 1 (n + 1)] at all rounds
    exact ⟨ev ++ ev', all, rounds, mode', last⟩

/-- What a READ with result `ok` makes of DELAY (R162). -/
def delayAfterRead (ok : Bool) (d : Nat) : Nat := if ok then d else raisedBelowCap d

theorem readOnce_delay_of_result {s : State} {ok : Bool} (h : valid (readOnce s).2.frame = ok) :
    (readOnce s).2.delay.toNat = delayAfterRead ok s.delay.toNat := by
  cases ok with
  | true => exact congrArg BitVec.toNat (readOnce_delay_of_valid h)
  | false => exact readOnce_delay_of_invalid h

/-- What an attempt of INIT and the increment after it make of DELAY (R163, D12). -/
def delayAfterAttempt (ok uncapped : Bool) (d : Nat) : Nat :=
  if uncapped = true ∨ delayAfterRead ok d < 10 then delayAfterRead ok d + 1 else delayAfterRead ok d

/-- DELAY at the end of INIT with `n` attempts to go after this one, none of them confirmed, every READ with
result `ok`: there is no increment after the last (D13). -/
def delayAfterAttempts (ok uncapped : Bool) : Nat → Nat → Nat
  | 0, d => delayAfterRead ok d
  | n + 1, d => delayAfterAttempts ok uncapped n (delayAfterAttempt ok uncapped d)

/-- The negotiation loop, for a peer that confirms no attempt. -/
theorem negotiationLoop_of_peer {c : Cost} {ok : Bool} {fits : Nat → State → Prop}
    (attempt : ∀ n s, fits (n + 1) s → ∃ ev, Evolves s (readOnce (negotiate s)).2 ev ∧ c.Bounds 1 ev ∧
      valid (readOnce (negotiate s)).2.frame = ok ∧ confirmed (readOnce (negotiate s)).2.frame = false ∧
      fits n (readOnce (negotiate s)).2)
    (raise : ∀ n s, fits n s → fits n (raiseDelay s))
    (n : Nat) (s : State) (start : fits (n + 1) s) (room : s.delay.toNat + 2 * n < 254) :
    ∃ ev, Evolves s (negotiationLoop (n + 1) s).2 ev ∧ c.Bounds (n + 1) ev ∧
      (negotiationLoop (n + 1) s).1 = .modeNegotiationFailed ∧
      (negotiationLoop (n + 1) s).2.session = .uninitialized ∧
      (negotiationLoop (n + 1) s).2.delay.toNat =
        delayAfterAttempts ok s.params.initIncUncapped n s.delay.toNat := by
  induction n generalizing s with
  | zero =>
    obtain ⟨ev, evolves, cost, result, unconfirmed, -⟩ := attempt 0 s start
    have read := readOnce_delay_of_result result
    rw [negotiate_delay] at read
    have ends : negotiationLoop 1 s =
        (.modeNegotiationFailed, setSession .uninitialized (readOnce (negotiate s)).2) := by
      rw [negotiationLoop, if_neg (Bool.eq_false_iff.1 unconfirmed), if_neg (not_not_intro rfl),
        negotiationLoop]
    rw [ends]
    exact ⟨ev, evolves.of_registers, cost, rfl, rfl, read⟩
  | succ n ih =>
    obtain ⟨ev, evolves, cost, result, unconfirmed, next⟩ := attempt (n + 1) s start
    have read := readOnce_delay_of_result result
    rw [negotiate_delay] at read
    have bounds := readOnce_delay_bounds (negotiate s)
    rw [negotiate_delay] at bounds
    have raised := raiseDelay_delay (s := (readOnce (negotiate s)).2) (by omega)
    rw [evolves.params] at raised
    have goes : negotiationLoop (n + 1 + 1) s =
        negotiationLoop (n + 1) (raiseDelay (readOnce (negotiate s)).2) := by
      rw [negotiationLoop, if_neg (Bool.eq_false_iff.1 unconfirmed), if_pos (Nat.succ_ne_zero n)]
    have room' : (raiseDelay (readOnce (negotiate s)).2).delay.toNat + 2 * n < 254 := by
      rw [raised]
      split <;> omega
    obtain ⟨ev', evolves', cost', code, session, delay⟩ := ih _ (raise _ _ next) room'
    have all := (evolves.of_registers (u := raiseDelay (readOnce (negotiate s)).2)).trans evolves'
    have rounds := cost.append cost'
    rw [Nat.add_comm 1 (n + 1)] at rounds
    rw [goes]
    refine ⟨ev ++ ev', all, rounds, code, session, ?_⟩
    rw [delay, raised, read, raiseDelay_params, evolves.params]
    rfl

/-- INIT's state when the negotiation loop begins (R163). -/
def negotiationStart (s : State) : State :=
  setSession .configuringAnalogMode (setDelay delayMin (probePhase s))

theorem negotiationStart_delay (s : State) : (negotiationStart s).delay = 1 := by
  rw [negotiationStart, setSession_delay]
  rfl

theorem startSession_of_alive {s : State} (h : alive (probePhase s).frame = true) :
    startSession s = negotiationLoop 11 (negotiationStart s) :=
  if_pos h

/-- INIT up to the negotiation loop, for a peer whose every READ ends with the same alive mode byte. -/
theorem negotiationStart_of_peer {c : Cost} {mode : Byte} {fits : Nat → State → Prop}
    (read : ∀ n s, fits (n + 1) s → ∃ ev, Evolves s (readOnce (elapse 0 s)).2 ev 1 ∧ c.Bounds 1 ev ∧
      (readOnce (elapse 0 s)).2.frame[1] = mode ∧ fits n (readOnce (elapse 0 s)).2)
    (isAlive : aliveMode mode = true) (s : State) (start : fits 2 (configure (setSession .probing s))) :
    ∃ ev, Evolves s (negotiationStart s) ev 2 ∧ c.Bounds 2 ev ∧
      startSession s = negotiationLoop 11 (negotiationStart s) ∧ fits 0 (probePhase s) := by
  obtain ⟨calls, -⟩ := configure_spec (setSession .probing s)
  obtain ⟨ev, evolves, cost, probed, last⟩ := probe_of_peer read 1 _ start
  have all := ((setSession_evolves .probing s).trans calls).trans evolves
  have quiet : c.Bounds 0 (configureTrace s.params) := by simp [Cost.Bounds]
  exact ⟨_, all.of_registers, quiet.append cost,
    startSession_of_alive ((alive_eq_of_mode probed).trans isAlive), last⟩

/-! ### A peer whose frames are all valid -/

theorem exchangeCount_readHeadTrace_le (s : State) : exchangeCount (readHeadTrace s) ≤ 3 := by
  unfold readHeadTrace
  split <;> split <;> simp

/-- Every READ succeeds at its first attempt. -/
theorem readOnce_of_valid_peer {raw : Byte} {m : Nat} {s : State} (peer : Answers raw (32 + m) s)
    (ok : validMode (reverse8 raw) = true) :
    ∃ ev, Evolves s (readOnce s).2 ev ∧ (Cost.mk 1 4 9 32).Bounds 1 ev ∧
      (readOnce s).2.frame[1] = reverse8 raw ∧ Answers raw m (readOnce s).2 := by
  have head := readHeadTransfers_le s
  have headExchanges := exchangeCount_readHeadTrace_le s
  have mode : (frameFrom s (attemptStart s 0))[1] = reverse8 raw := by
    rw [mode_frameFrom, peer _ (by simp only [attemptStart]; omega)]
  obtain ⟨evolves, frame⟩ := readFrame_of_valid (n := 0) (by omega)
    (fun j hj => absurd hj (Nat.not_lt_zero j)) (by rw [mode]; exact ok)
  obtain ⟨-, evolves, regs⟩ := readOnce_of_readFrame evolves frame
  have frame : (readOnce s).2.frame = frameFrom s (attemptStart s 0) := by
    simpa using congrArg Registers.frame regs
  have none : failedAttemptsTrace s 0 = [] := rfl
  rw [none, List.append_nil] at evolves
  have transfers : transferCount (readHeadTrace s ++ xrdTrace s (attemptStart s 0)) =
      readHeadTransfers s + 9 := by simp
  refine ⟨_, evolves, ?_, by rw [frame, mode], peer.after evolves (by omega)⟩
  simp only [Cost.Bounds, exchangeCount_append, exchangeCount_xrdTrace, transfers]
  omega

/-- A READ of INIT's probe phase. -/
theorem probeRead_of_valid_peer {raw : Byte} {rest : Nat} (ok : validMode (reverse8 raw) = true) (n : Nat)
    (s : State) (peer : Answers raw (32 * (n + 1) + rest) s) :
    ∃ ev, Evolves s (readOnce (elapse 0 s)).2 ev 1 ∧ (Cost.mk 1 4 9 32).Bounds 1 ev ∧
      (readOnce (elapse 0 s)).2.frame[1] = reverse8 raw ∧
      Answers raw (32 * n + rest) (readOnce (elapse 0 s)).2 := by
  have gap := elapse_evolves s
  obtain ⟨ev, evolves, cost, mode, next⟩ := readOnce_of_valid_peer (m := 32 * n + rest)
    (peer.after gap (by rw [transferCount_nil]; omega)) ok
  exact ⟨ev, gap.trans evolves, cost, mode, next⟩

/-- NEG and the READ of an attempt of INIT. -/
theorem attempt_of_valid_peer {raw : Byte} {m : Nat} {s : State} (peer : Answers raw (55 + m) s)
    (ok : validMode (reverse8 raw) = true) :
    ∃ ev, Evolves s (readOnce (negotiate s)).2 ev ∧ (Cost.mk 4 7 32 55).Bounds 1 ev ∧
      (readOnce (negotiate s)).2.frame[1] = reverse8 raw ∧ Answers raw m (readOnce (negotiate s)).2 := by
  obtain ⟨neg, -⟩ := negotiate_spec s
  obtain ⟨ev, evolves, cost, mode, next⟩ := readOnce_of_valid_peer (m := m)
    (peer.after neg (by rw [transferCount_negTrace]; omega)) ok
  refine ⟨_, neg.trans evolves, ?_, mode, next⟩
  simp only [Cost.Bounds, exchangeCount_append, transferCount_append, exchangeCount_negTrace,
    transferCount_negTrace] at cost ⊢
  omega

/-- The probe phase of a valid and alive peer. -/
theorem negotiationStart_of_valid_peer {raw : Byte} {rest : Nat} {s : State}
    (peer : Answers raw (64 + rest) s) (ok : validMode (reverse8 raw) = true)
    (isAlive : aliveMode (reverse8 raw) = true) :
    ∃ ev, Evolves s (negotiationStart s) ev 2 ∧ (Cost.mk 1 4 9 32).Bounds 2 ev ∧
      startSession s = negotiationLoop 11 (negotiationStart s) ∧ Answers raw rest (negotiationStart s) := by
  have calls := (setSession_evolves .probing s).trans (configure_spec (setSession .probing s)).1
  obtain ⟨ev, evolves, cost, ends, last⟩ := negotiationStart_of_peer
    (fits := fun n => Answers raw (32 * n + rest)) (probeRead_of_valid_peer ok) isAlive s
    (peer.after calls (by simp [transferCount]))
  have begins := (Evolves.refl (probePhase s)).of_registers (u := negotiationStart s)
  exact ⟨ev, evolves, cost, ends, last.after begins (by simp)⟩

/-- Settles O34: the first attempt is confirmed. -/
theorem initOfAConfirmingPeerSucceeds : Obligations.InitOfAConfirmingPeerSucceeds := by
  unfold Obligations.InitOfAConfirmingPeerSucceeds
  intro s usable peer
  obtain ⟨ev, probed, probeCost, ends, rest⟩ := negotiationStart_of_valid_peer (rest := 55) peer
    (by decide) (by decide)
  obtain ⟨ev', attempted, cost, mode, -⟩ := attempt_of_valid_peer (m := 0) rest (by decide)
  have ok : valid (readOnce (negotiate (negotiationStart s))).2.frame = true :=
    (valid_eq_of_mode mode).trans (by decide)
  have confirms : confirmed (readOnce (negotiate (negotiationStart s))).2.frame = true :=
    (confirmed_eq_of_mode mode).trans (by decide)
  have stops : startSession s =
      (.ok, setSession (.ready true) (readOnce (negotiate (negotiationStart s))).2) := by
    rw [ends, negotiationLoop, if_pos confirms]
  have delay : (readOnce (negotiate (negotiationStart s))).2.delay = 1 := by
    rw [readOnce_delay_of_valid ok, negotiate_delay, negotiationStart_delay]
  refine ⟨setSession (.ready true) _, ev ++ ev', by rw [exec_init_accepted usable, stops], rfl, delay,
    (probed.trans attempted).trace, ?_⟩
  simp only [Cost.Bounds, exchangeCount_append] at probeCost cost ⊢
  omega

/-- Settles O35: eleven attempts, none confirmed. -/
theorem initOfAPeerThatNeverConfirmsFails : Obligations.InitOfAPeerThatNeverConfirmsFails := by
  unfold Obligations.InitOfAPeerThatNeverConfirmsFails
  intro s usable peer
  obtain ⟨ev, probed, probeCost, ends, rest⟩ := negotiationStart_of_valid_peer (rest := 605) peer
    (by decide) (by decide)
  obtain ⟨ev', loop, cost, code, session, delay⟩ := negotiationLoop_of_peer (c := ⟨4, 7, 32, 55⟩) (ok := true)
    (fits := fun n => Answers 0x9E (55 * n))
    (fun n u peer => by
      rw [show 55 * (n + 1) = 55 + 55 * n by omega] at peer
      obtain ⟨ev, evolves, cost, mode, next⟩ := attempt_of_valid_peer peer (by decide)
      exact ⟨ev, evolves, cost, (valid_eq_of_mode mode).trans (by decide),
        (confirmed_eq_of_mode mode).trans (by decide), next⟩)
    (fun n u peer => peer.after ((Evolves.refl u).of_registers (u := raiseDelay u))
      (by rw [transferCount_nil]; omega))
    10 (negotiationStart s) rest (by rw [negotiationStart_delay]; decide)
  have failed : startSession s =
      (.modeNegotiationFailed, (negotiationLoop 11 (negotiationStart s)).2) :=
    ends.trans (Prod.ext code rfl)
  refine ⟨_, ev ++ ev', by rw [exec_init_accepted usable, failed], session, ?_,
    (probed.trans loop).trace, ?_⟩
  · rw [delay, probed.params, negotiationStart_delay]
    cases s.params.initIncUncapped <;> rfl
  · simp only [Cost.Bounds, exchangeCount_append] at probeCost cost ⊢
    omega

/-! ### A peer whose frames are all invalid, under a slow clock -/

/-- PEER answers `raw` to the next `m` transfers, the next `n` ticks are slow, and no attempt goes without
its renegotiation. -/
structure StaleInvalid (raw : Byte) (m n : Nat) (s : State) : Prop where
  peer : Answers raw m s
  clock : SlowClock n s
  stamped : s.tlast ≤ s.now
  retries : s.params.negAfterLastAttempt = true

/-- The counts of a READ that is stale and misses: it reaches R165's maximum. -/
theorem readOnce_of_stale_miss {s : State} (stale : s.now - s.tlast > s.params.staleUs)
    (retries : s.params.negAfterLastAttempt = true)
    (invalid : ∀ j < 5, validMode (frameFrom s (attemptStart s j))[1] = false) :
    ∃ ev, Evolves s (readOnce s).2 ev ∧ exchangeCount ev = 23 ∧ transferCount ev = 183 ∧
      ev.length ≤ 327 ∧ (readOnce s).2.frame = frameFrom s (attemptStart s 4) := by
  obtain ⟨evolves, frame⟩ := readFrame_of_invalid invalid
  obtain ⟨-, evolves, regs⟩ := readOnce_of_readFrame evolves frame
  have counts : transferCount (failedAttemptsTrace s 4) = 128 ∧ exchangeCount (failedAttemptsTrace s 4) = 16 ∧
      (failedAttemptsTrace s 4).length = 228 := attemptsTrace_counts s (readHeadTransfers s) 4
  obtain ⟨transfers, exchanges, events⟩ := counts
  have head : transferCount (readHeadTrace s) = 23 ∧ exchangeCount (readHeadTrace s) = 3 ∧
      (readHeadTrace s).length ≤ 42 := by
    rw [readHeadTrace, if_pos stale]
    split <;> simp
  obtain ⟨headTransfers, headExchanges, headEvents⟩ := head
  rw [if_pos retries] at evolves
  refine ⟨_, evolves, ?_, ?_, ?_, by simpa using congrArg Registers.frame regs⟩
  · simp only [exchangeCount_append, exchanges, headExchanges, failedAttemptTrace_eq,
      exchangeCount_attemptTrace]
  · simp only [transferCount_append, transfers, headTransfers, failedAttemptTrace_eq,
      transferCount_attemptTrace]
  · simp only [List.length_append, events, failedAttemptTrace_eq, length_attemptTrace]
    omega

/-- Every READ after at least one tick is stale, and all its attempts fail. -/
theorem readOnce_of_stale_invalid_peer {raw : Byte} (bad : validMode (reverse8 raw) = false) {m n : Nat}
    {s t : State} {ev : List Event} {gaps : Nat} (evolves : Evolves s t ev gaps)
    (tick : 1 ≤ ev.length + gaps) (kept : t.tlast = s.tlast)
    (h : StaleInvalid raw (transferCount ev + 183 + m) (ev.length + gaps + 327 + n) s) :
    ∃ ev', Evolves t (readOnce t).2 ev' ∧ exchangeCount ev' = 23 ∧ transferCount ev' = 183 ∧
      (readOnce t).2.frame[1] = reverse8 raw ∧ StaleInvalid raw m n (readOnce t).2 := by
  have head := readHeadTransfers_le t
  have peer : Answers raw (183 + m) t := h.peer.after evolves (by omega)
  have clock : SlowClock (327 + n) t := h.clock.after evolves (by omega)
  have stale := h.clock.stale (by omega) evolves tick h.stamped kept
  have retries : t.params.negAfterLastAttempt = true := by rw [evolves.params, h.retries]
  have mode : ∀ j < 5, (frameFrom t (attemptStart t j))[1] = reverse8 raw := by
    intro j hj
    rw [mode_frameFrom, peer _ (by simp only [attemptStart]; omega)]
  obtain ⟨ev', reads, exchanges, transfers, events, frame⟩ := readOnce_of_stale_miss stale retries
    fun j hj => by rw [mode j hj]; exact bad
  exact ⟨ev', reads, exchanges, transfers, by rw [frame, mode 4 (by omega)],
    peer.after reads (by omega), clock.after reads (by omega),
    Nat.le_of_eq (readOnce_afterRead t).tlast, by rw [readOnce_params, retries]⟩

/-- A READ of INIT's probe phase, after its gap. -/
theorem probeRead_of_stale_invalid_peer {raw : Byte} {m n : Nat} (bad : validMode (reverse8 raw) = false)
    (k : Nat) (s : State) (h : StaleInvalid raw (183 * (k + 1) + m) (328 * (k + 1) + n) s) :
    ∃ ev, Evolves s (readOnce (elapse 0 s)).2 ev 1 ∧ (Cost.mk 23 23 183 183).Bounds 1 ev ∧
      (readOnce (elapse 0 s)).2.frame[1] = reverse8 raw ∧
      StaleInvalid raw (183 * k + m) (328 * k + n) (readOnce (elapse 0 s)).2 := by
  have gap := elapse_evolves s
  rw [show 183 * (k + 1) + m = transferCount [] + 183 + (183 * k + m) by simp; omega,
    show 328 * (k + 1) + n = ([] : List Event).length + 1 + 327 + (328 * k + n) by simp; omega] at h
  obtain ⟨ev, evolves, exchanges, transfers, mode, next⟩ :=
    readOnce_of_stale_invalid_peer bad gap (by simp) (elapse_tlast 0 s) h
  exact ⟨ev, gap.trans evolves, by simp [Cost.Bounds, exchanges, transfers], mode, next⟩

/-- NEG and the READ of an attempt of INIT. -/
theorem attempt_of_stale_invalid_peer {raw : Byte} (bad : validMode (reverse8 raw) = false)
    (k : Nat) (s : State) (h : StaleInvalid raw (206 * (k + 1)) (368 * (k + 1)) s) :
    ∃ ev, Evolves s (readOnce (negotiate s)).2 ev ∧ (Cost.mk 26 26 206 206).Bounds 1 ev ∧
      (readOnce (negotiate s)).2.frame[1] = reverse8 raw ∧
      StaleInvalid raw (206 * k) (368 * k) (readOnce (negotiate s)).2 := by
  obtain ⟨neg, regs⟩ := negotiate_spec s
  have kept : (negotiate s).tlast = s.tlast := by simpa using congrArg Registers.tlast regs
  rw [show 206 * (k + 1) = transferCount (negTrace s 0) + 183 + 206 * k by simp; omega,
    show 368 * (k + 1) = (negTrace s 0).length + 0 + 327 + 368 * k by simp; omega] at h
  obtain ⟨ev, evolves, exchanges, transfers, mode, next⟩ :=
    readOnce_of_stale_invalid_peer bad neg (by simp) kept h
  exact ⟨_, neg.trans evolves, by simp [Cost.Bounds, exchanges, transfers], mode, next⟩

/-- INIT's own writes leave the script. -/
theorem StaleInvalid.of_registers {raw : Byte} {m n : Nat} {s t : State} (h : StaleInvalid raw m n s)
    (evolves : Evolves s t []) (kept : t.tlast = s.tlast) : StaleInvalid raw m n t :=
  ⟨h.peer.after evolves (by simp), h.clock.after evolves (by simp),
    kept ▸ Nat.le_trans h.stamped evolves.now_le, by rw [evolves.params, h.retries]⟩

/-- The probe phase begins four events into the script. -/
theorem StaleInvalid.after_configure {raw : Byte} {m n : Nat} {s : State}
    (h : StaleInvalid raw m (4 + n) s) : StaleInvalid raw m n (configure (setSession .probing s)) := by
  obtain ⟨calls, regs⟩ := configure_spec (setSession .probing s)
  have evolves := (setSession_evolves .probing s).trans calls
  have kept : (configure (setSession .probing s)).tlast = s.tlast := by
    simpa using congrArg Registers.tlast regs
  exact ⟨h.peer.after evolves (by simp [transferCount]), h.clock.after evolves (by simp),
    kept ▸ Nat.le_trans h.stamped evolves.now_le, by rw [evolves.params, h.retries]⟩

/-- Settles O60: every READ of INIT reaches its maximum. -/
theorem initOfAStaleInvalidPeerReachesTheBounds : Obligations.InitOfAStaleInvalidPeerReachesTheBounds := by
  unfold Obligations.InitOfAStaleInvalidPeerReachesTheBounds
  intro s usable retries stamped peer clock
  have bad : validMode (reverse8 0x82) = false := by decide
  have start : StaleInvalid 0x82 2632 (4 + 4704) s := ⟨peer, clock, stamped, retries⟩
  obtain ⟨ev, probed, probeCost, ends, last⟩ := negotiationStart_of_peer
    (fits := fun k => StaleInvalid 0x82 (183 * k + 2266) (328 * k + 4048))
    (probeRead_of_stale_invalid_peer bad) (by decide) s start.after_configure
  have loopStart : StaleInvalid 0x82 (206 * 11) (368 * 11) (negotiationStart s) :=
    last.of_registers ((Evolves.refl (probePhase s)).of_registers (u := negotiationStart s)) rfl
  obtain ⟨ev', loop, cost, code, session, delay⟩ := negotiationLoop_of_peer (ok := false)
    (fits := fun k => StaleInvalid 0x82 (206 * k) (368 * k))
    (fun k u fits => by
      obtain ⟨ev, evolves, cost, mode, next⟩ := attempt_of_stale_invalid_peer bad k u fits
      exact ⟨ev, evolves, cost, (valid_eq_of_mode mode).trans bad,
        (confirmed_eq_of_mode mode).trans (by decide), next⟩)
    (fun k u fits => fits.of_registers (Evolves.refl u).of_registers (raiseDelay_tlast u))
    10 (negotiationStart s) loopStart (by rw [negotiationStart_delay]; decide)
  have failed : startSession s =
      (.modeNegotiationFailed, (negotiationLoop 11 (negotiationStart s)).2) :=
    ends.trans (Prod.ext code rfl)
  simp only [Cost.Bounds] at probeCost cost
  refine ⟨_, ev ++ ev', by rw [exec_init_accepted usable, failed], (probed.trans loop).trace, ?_, ?_,
    session, ?_⟩
  · rw [exchangeCount_append]
    omega
  · rw [transferCount_append]
    omega
  · rw [delay, probed.params, negotiationStart_delay, delayCeiling]
    cases s.params.initIncUncapped <;> rfl

end Sys2Proof.Machine
end
